-- ==== Sys2Proof/Word.lean ====
section
/-! DEFINITION. The word types of DES_core (spec/00_scope.md R8 to R10, spec/20_memory.md R60).

A cipher bit string `BitStr n` is a `BitVec n` whose index 0 is its MOST significant bit (R8), read with `getMsbD`.
A byte string of n bytes that a register or the datapath holds is a `BitVec (8 * n)` with byte 0 most significant (R9),
so concatenation is `++` and a register word's bit 31 is the first cipher bit of that word (R61). -/

namespace Sys2Proof

/-- One byte. -/
abbrev Byte := BitVec 8
/-- A host-visible register word: bit 31 most significant, bit 0 least (R10). -/
abbrev Word := BitVec 32
/-- A 6-bit word index on the host port (R60). -/
abbrev Idx := BitVec 6
/-- A DES block, a DEAL half or a DEAL round key: 8 bytes. -/
abbrev Block64 := BitVec 64
/-- A DEAL block, or a 16-byte register buffer. -/
abbrev Block128 := BitVec 128
/-- A DES round key (R6). -/
abbrev DesKey48 := BitVec 48
/-- A DES round-key schedule: exactly 16 round keys (spec/10_state.md R34). -/
abbrev DesSchedule := Vector DesKey48 16

end Sys2Proof
end

