-- ==== Sys2Proof/Config.lean ====
section
/-! DEFINITION. What an implementation of DES_core fixes (spec/00_scope.md R7) and the free values the spec leaves open.

`LAT_SETKEY`, `LAT_DES`, `LAT_DEAL` and `LAT_CTL` are OPEN and "no rule depends on them": the model has no number for
them; the place of the core's turn among the inputs stands for every latency (log entry 2). -/

namespace Sys2Proof

/-- The build parameter `FEISTEL_IMPL` (R7): OPEN, a model argument; the two builds compute the same function (R128). -/
inductive FeistelImpl where
  | iterative
  | unrolled
  deriving DecidableEq, Repr

/-- The unspecified contents of `ST.rk_des` after a reset (spec/10_state.md R43, spec/93_implementation_defined.md U1):
a free value, one for each draw. Log entry 5. -/
opaque Config.freeRkDes : Nat → DesSchedule

/-- The unspecified contents of `ST.rk_deal` after a reset (R43, U2): a free value of any length. Log entry 5. -/
opaque Config.freeRkDeal : Nat → List Block64

/-- The unspecified contents of `ST.deal_inner_rk` after a reset (R43, U3): a free value. Log entry 5. -/
opaque Config.freeInnerRk : Nat → DesSchedule

end Sys2Proof
end

