-- ==== Sys2Proof/Syntax.lean ====
section
/-! DEFINITION. The syntax of DES_core: its nine commands (spec/30_encoding.md R82), the enumerations its registers
name, its register words (spec/10_state.md R20), the host's transactions (spec/20_memory.md R60) and the host's
assembler lines (spec/30_encoding.md R87, R88). -/

namespace Sys2Proof

/-- The commands: one constructor per row of spec/opcode_table.json. No command word carries an operand (R85). -/
inductive Instr where
  | nop        -- NOP        0x00, R230
  | setkey     -- SETKEY     0x01, R231
  | encrypt    -- ENCRYPT    0x02, R232
  | decrypt    -- DECRYPT    0x03, R233
  | modeInit   -- MODE_INIT  0x10, R234
  | modeEnc    -- MODE_ENC   0x11, R235
  | modeDec    -- MODE_DEC   0x12, R236
  | modeClear  -- MODE_CLEAR 0x13, R237
  | softreset  -- SOFTRESET  0x20, R238
  deriving DecidableEq, Repr

/-- The two algorithms, CFG.ALG and STATUS.SALG (R23). -/
inductive Alg where
  | des
  | deal
  deriving DecidableEq, Repr

/-- The seven chaining modes, the source's closed enumeration in its order (R24). -/
inductive Mode where
  | ecb
  | cbc
  | pcbc
  | cfb
  | ofb
  | ctr
  | randomDelta
  deriving DecidableEq, Repr

/-- The direction of a cipher or of a block command. -/
inductive Dir where
  | enc
  | dec
  deriving DecidableEq, Repr

/-- The outcome codes of STATUS.ERR, 0 to 7 in this order; codes 8 to 15 are never produced (R300). -/
inductive ErrCode where
  | ok
  | illegalCmd
  | keyLen
  | noKey
  | blockLen
  | ivLen
  | noSession
  | badMode
  deriving DecidableEq, Repr

/-- How an exposed primitive of files 40 to 44 fails. None of these is reachable from a command (R110, R166, R186). -/
inductive PrimFail where
  /-- `fail RANGE` of getBit, setBit and permute (R100 to R102). -/
  | range
  /-- `fail WIDTH` of the substitution step (R166). -/
  | width
  /-- `fail KEY_LEN` of the key schedules and of DEAL_F (R141, R181, R185). -/
  | keyLen
  /-- permuteBytes with an output that is no whole number of bytes: the spec leaves the case undefined and a model
  refuses it (R103, spec/93_implementation_defined.md U5). -/
  | raggedOutput
  deriving DecidableEq, Repr

/-- The host-visible register words (R20). -/
inductive Reg where
  | ctrl
  | cfg
  | cmd
  | status
  | key (w : Fin 8)
  | din (w : Fin 4)
  | dout (w : Fin 4)
  | iv (w : Fin 4)
  | delta (w : Fin 4)
  | cv (w : Fin 4)
  | reserved (w : Fin 32)
  deriving DecidableEq, Repr

/-- A host transaction (R60), with the encoding `(W|R, idx, data)` of R87. -/
inductive Transaction where
  | write (idx : Idx) (v : Word)
  | read (idx : Idx)
  deriving DecidableEq, Repr

/-- What comes to DES_core from outside, and when its core moves: the one interleaving of R66, as data. -/
inductive Input where
  /-- The host performs one transaction. -/
  | host (t : Transaction)
  /-- The core has the turn: the pending command completes (R303). -/
  | core
  /-- The pin `rst` takes this level (R330). -/
  | pin (level : Bool)
  deriving DecidableEq, Repr

/-- The operands a host assembles into a CFG word (R81), as numbers; an omitted operand is 0 (R88). -/
structure CfgOperands where
  alg : Nat := 0
  mode : Nat := 0
  keylen : Nat := 0
  ivlen : Nat := 0
  dlen : Nat := 0
  deriving DecidableEq, Repr

/-- A line of the host's assembler (R87) or a pseudo-operation (R88). -/
inductive AsmLine where
  | wr (r : Reg) (v : Word)
  | rd (r : Reg)
  | cmd (i : Instr)
  | cfg (o : CfgOperands)
  | ldkey (bs : List Byte)
  | ldblk (bs : List Byte)
  | ldiv (bs : List Byte)
  | lddelta (bs : List Byte)
  | wait
  | run (i : Instr)
  | ackdone
  deriving DecidableEq, Repr

/-- What a line expands to (R88): transactions, and the host loop of `wait`. -/
inductive HostOp where
  /-- One transaction. -/
  | access (t : Transaction)
  /-- `L: rd STATUS -> s ; if s[0] = 1 goto L`. -/
  | pollWhileBusy
  deriving DecidableEq, Repr

/-- A move of a host program: a line, with the number of polls its loop makes before the core's turn if the command is
still pending (the latency, which R350 leaves open), or a turn of the core between two lines. -/
inductive HostMove where
  | line (l : AsmLine) (turn : Nat)
  | core
  deriving DecidableEq, Repr

/-- The four padding schemes of the host (spec/47_host_padding.md). -/
inductive PadScheme where
  | zeros
  | pkcs7
  | ansix923
  | iso10126
  deriving DecidableEq, Repr

/-- A host error: a value returned to the caller, never a fault and never in STATUS.ERR, except that `engine` reports
the STATUS.ERR the host read when it stopped on an error (R260, R272). -/
inductive HostError where
  | pad
  | blockLen
  | engine (e : ErrCode)
  /-- A `wait` loop that never ends: BUSY = 1 with no command pending, which no run reaches (spec/10_state.md R44; log
  entry 26). -/
  | waitNeverEnds
  deriving DecidableEq, Repr

end Sys2Proof
end

