-- ==== Sys2Proof/WellFormed.lean ====
section
/-! DEFINITION. What a well-formed term of DES_core's syntax is. -/

namespace Sys2Proof

/-- No command carries an operand (spec/30_encoding.md R85), so no command is ill-formed; what can be ill-formed is a
command WORD (below), a CFG operand list and an assembler line. -/
def Instr.wf : Instr → Bool
  | .nop => true
  | .setkey => true
  | .encrypt => true
  | .decrypt => true
  | .modeInit => true
  | .modeEnc => true
  | .modeDec => true
  | .modeClear => true
  | .softreset => true

/-- A command word is one of the nine: RSV is zero and OPC is assigned (R82, R84). -/
def wordWf (c : Word) : Bool :=
  c.extractLsb' 8 24 == 0#24 && [0x00#8, 0x01#8, 0x02#8, 0x03#8, 0x10#8, 0x11#8, 0x12#8, 0x13#8, 0x20#8].contains
    (c.extractLsb' 0 8)

/-- ALG < 2, MODE < 8, KEYLEN < 64, IVLEN < 32, DLEN < 32 (R81). -/
def CfgOperands.wf (o : CfgOperands) : Bool :=
  decide (o.alg < 2) && decide (o.mode < 8) && decide (o.keylen < 64) && decide (o.ivlen < 32) && decide (o.dlen < 32)

/-- The words a `wr` line may name (R87), and CMD, as a line of program P4 of spec/95_test_vectors.md writes it (log entry
26). DOUT, CV and the reserved words have no writer. -/
def Reg.hasWriter : Reg → Bool
  | .ctrl => true
  | .cfg => true
  | .status => true
  | .key _ => true
  | .din _ => true
  | .iv _ => true
  | .delta _ => true
  | .cmd => true
  | .dout _ => false
  | .cv _ => false
  | .reserved _ => false

/-- The words an `rd` line may name: the register word names of R20; a reserved word has no name. -/
def Reg.hasName : Reg → Bool
  | .reserved _ => false
  | .ctrl => true
  | .cfg => true
  | .cmd => true
  | .status => true
  | .key _ => true
  | .din _ => true
  | .dout _ => true
  | .iv _ => true
  | .delta _ => true
  | .cv _ => true

/-- A well-formed assembler line: a register with the named access, CFG operands in range, a buffer that fits
(32 bytes for the key, 16 for the others; spec/10_state.md R28 to R32). -/
def AsmLine.wf : AsmLine → Bool
  | .wr r _ => r.hasWriter
  | .rd r => r.hasName
  | .cmd i => i.wf
  | .cfg o => o.wf
  | .ldkey bs => decide (bs.length ≤ 32)
  | .ldblk bs => decide (bs.length ≤ 16)
  | .ldiv bs => decide (bs.length ≤ 16)
  | .lddelta bs => decide (bs.length ≤ 16)
  | .wait => true
  | .run i => i.wf
  | .ackdone => true

end Sys2Proof
end

