-- ==== Sys2Proof/Decode.lean ====
section
/-! DEFINITION. Decoding and encoding of DES_core's two formats: the 32-bit command word (spec/30_encoding.md R80 to
R84) and the CFG word (R81). Decoding is total on 32-bit words; a rejected word is named by why (R83). -/

namespace Sys2Proof

/-- Why a command word is illegal (R83): both reasons raise ILLEGAL_CMD. -/
inductive DecodeReject where
  | rsvNotZero
  | opcUnassigned
  deriving DecidableEq, Repr

/-- OPC, bits [7:0] (R80). -/
def opcOf (c : Word) : BitVec 8 := c.extractLsb' 0 8

/-- RSV, bits [31:8] (R80). -/
def rsvOf (c : Word) : BitVec 24 := c.extractLsb' 8 24

/-- The decoder of R83. -/
def decode (c : Word) : Except DecodeReject Instr :=
  if rsvOf c ≠ 0#24 then .error .rsvNotZero
  else match (opcOf c).toNat with
    | 0x00 => .ok .nop
    | 0x01 => .ok .setkey
    | 0x02 => .ok .encrypt
    | 0x03 => .ok .decrypt
    | 0x10 => .ok .modeInit
    | 0x11 => .ok .modeEnc
    | 0x12 => .ok .modeDec
    | 0x13 => .ok .modeClear
    | 0x20 => .ok .softreset
    | _ => .error .opcUnassigned

/-- The OPC of each command (R82). -/
def Instr.opc : Instr → BitVec 8
  | .nop => 0x00#8
  | .setkey => 0x01#8
  | .encrypt => 0x02#8
  | .decrypt => 0x03#8
  | .modeInit => 0x10#8
  | .modeEnc => 0x11#8
  | .modeDec => 0x12#8
  | .modeClear => 0x13#8
  | .softreset => 0x20#8

/-- The command word: RSV zero, then OPC (R80). -/
def encode (i : Instr) : Word := 0#24 ++ i.opc

/-- The opcode map as R82 states it: (match, mask, command). A word selects a command exactly when
`word & mask = match`. -/
def opcodeRows : List (Word × Word × Instr) :=
  [(0x00000000#32, 0xFFFFFFFF#32, .nop), (0x00000001#32, 0xFFFFFFFF#32, .setkey),
   (0x00000002#32, 0xFFFFFFFF#32, .encrypt), (0x00000003#32, 0xFFFFFFFF#32, .decrypt)] ++
  [(0x00000010#32, 0xFFFFFFFF#32, .modeInit), (0x00000011#32, 0xFFFFFFFF#32, .modeEnc),
   (0x00000012#32, 0xFFFFFFFF#32, .modeDec), (0x00000013#32, 0xFFFFFFFF#32, .modeClear)] ++
  [(0x00000020#32, 0xFFFFFFFF#32, .softreset)]

/-- The command the rows of R82 select for a word. -/
def selectByRows (c : Word) : Option Instr :=
  (opcodeRows.find? fun r => (c &&& r.2.1) == r.1).map (·.2.2)

/-- The CFG word a host assembles (R81): `ALG | MODE << 1 | KEYLEN << 4 | IVLEN << 10 | DLEN << 15`. -/
def encodeCfg (o : CfgOperands) : Word :=
  BitVec.ofNat 32 o.alg ||| (BitVec.ofNat 32 o.mode <<< 1) ||| (BitVec.ofNat 32 o.keylen <<< 4) |||
    (BitVec.ofNat 32 o.ivlen <<< 10) ||| (BitVec.ofNat 32 o.dlen <<< 15)

/-- The operands a CFG word carries (spec/10_state.md R23). -/
def decodeCfg (c : Word) : CfgOperands where
  alg := (c.extractLsb' 0 1).toNat
  mode := (c.extractLsb' 1 3).toNat
  keylen := (c.extractLsb' 4 6).toNat
  ivlen := (c.extractLsb' 10 5).toNat
  dlen := (c.extractLsb' 15 5).toNat

/-- The command word an opcode-table word of `nbits` bits stands for: the bits above `nbits` are zero, and there is
one 32-bit word whatever `nbits` is (R80). -/
def tableWord (nbits w : Nat) : Word := BitVec.ofNat 32 (w % 2 ^ nbits)

/-- What the decoder reads from an opcode-table word. DES_core's command is one 32-bit word on a word-addressed port
(spec/20_memory.md R60), so no byte order enters. -/
def decodeTableWord (nbits w : Nat) : Option Instr :=
  match decode (tableWord nbits w) with
  | .ok i => some i
  | .error _ => none

end Sys2Proof
end

