-- ==== Sys2Proof/Machine/State.lean ====
section
/-! DEFINITION. The state of DES_core (spec/10_state.md), the reasons a step can stop, and the state after reset. -/

namespace Sys2Proof.Machine

/-- Faults. DES_core has none: an error is a value in STATUS.ERR delivered by the command's completion, and the machine
goes on (spec/60_exceptions.md R300, R301). The type is closed and empty, which is safe: no step can raise one. -/
inductive Fault where
  deriving DecidableEq, Repr

/-- Refusals. Every command of the opcode table has its meaning, so no step of this model refuses. -/
inductive Refusal where
  /-- An instruction with no meaning yet, rejected by name in `exec`. Nothing raises it; raising it would be safe. -/
  | notModelled (mnemonic : String)
  deriving DecidableEq, Repr

/-- The whole machine. Byte buffers hold byte 0 most significant (spec/20_memory.md R61). -/
structure State where
  /-- CTRL.IE (R22). -/
  ie : Bool
  /-- CFG, its 20 stored bits [19:0]; bits [31:20] read zero and discard writes (R23). -/
  cfg : BitVec 20
  /-- STATUS.BUSY (R26). -/
  busy : Bool
  /-- STATUS.DONE (R26). -/
  done : Bool
  /-- STATUS.HAZ (R26). -/
  haz : Bool
  /-- STATUS.ERR (R26, R300). -/
  err : ErrCode
  /-- STATUS.KVD: a DES round-key schedule is stored. -/
  kvd : Bool
  /-- STATUS.KVL: a DEAL round-key schedule is stored. -/
  kvl : Bool
  /-- STATUS.SESS: a mode session is open. -/
  sess : Bool
  /-- STATUS.SALG: the session's algorithm. -/
  salg : Alg
  /-- STATUS.SMODE: the session's mode. -/
  smode : Mode
  /-- STATUS.ECMD: bits [7:0] of the completed command word. -/
  ecmd : BitVec 8
  /-- STATUS.DNR: the DEAL round count of the stored schedule, 0 where none is stored. -/
  dnr : BitVec 4
  /-- KEYBUF, KEY0 to KEY7 (R28). -/
  keybuf : BitVec 256
  /-- DINBUF, DIN0 to DIN3 (R29). -/
  dinbuf : Block128
  /-- DOUTBUF, DOUT0 to DOUT3 (R30). -/
  doutbuf : Block128
  /-- IVBUF, IV0 to IV3 (R31). -/
  ivbuf : Block128
  /-- DELTABUF, DELTA0 to DELTA3 (R32). -/
  deltabuf : Block128
  /-- CVBUF, CV0 to CV3: the chaining value (R33). -/
  cvbuf : Block128
  /-- ST.rk_des: the DES round-key store (R34). -/
  rkDes : DesSchedule
  /-- ST.rk_deal: the DEAL round-key store (R35). -/
  rkDeal : List Block64
  /-- ST.nr_deal: its round count (R35). -/
  nrDeal : Nat
  /-- ST.deal_inner_rk: the schedule of DEAL's own DES, hidden (R36). -/
  dealInnerRk : DesSchedule
  /-- ST.s_delta: the session's RandomDelta increment (R37). -/
  sDelta : Block128
  /-- ST.pending: the accepted command word, or none (R38). -/
  pending : Option Word
  /-- The level of the reset input (spec/70_reset_and_hazards.md R330). -/
  rst : Bool
  /-- The model's own: what the outside world does next, oldest first (log entries 1 and 2). -/
  inputs : List Input
  /-- The model's own: the word the last HostRead returned to the host (log entry 6). -/
  readData : Word
  /-- The model's own: how many resets have drawn free values (log entry 5). -/
  draws : Nat
  deriving DecidableEq, Repr

/-- DES_core right after reset (R43). The three stores the spec leaves unspecified hold zeros here (log entry 4). -/
def State.reset : State where
  ie := false
  cfg := 0#20
  busy := false
  done := false
  haz := false
  err := .ok
  kvd := false
  kvl := false
  sess := false
  salg := .des
  smode := .ecb
  ecmd := 0x00#8
  dnr := 0#4
  keybuf := 0#256
  dinbuf := 0#128
  doutbuf := 0#128
  ivbuf := 0#128
  deltabuf := 0#128
  cvbuf := 0#128
  rkDes := Vector.replicate 16 0#48
  rkDeal := []
  nrDeal := 0
  dealInnerRk := Vector.replicate 16 0#48
  sDelta := 0#128
  pending := none
  rst := false
  inputs := []
  readData := 0#32
  draws := 0

end Sys2Proof.Machine
end

