-- ==== Sys2Proof/Machine/Flags.lean ====
section
/-! DEFINITION. The flags of DES_core: STATUS and its fields (spec/10_state.md R26, R27), the register views of CTRL and
CFG (R22, R23), and the interrupt output (R41). -/

namespace Sys2Proof.Machine

/-- The code of an outcome in STATUS.ERR (spec/60_exceptions.md R300). -/
def errBits : ErrCode → BitVec 4
  | .ok => 0#4
  | .illegalCmd => 1#4
  | .keyLen => 2#4
  | .noKey => 3#4
  | .blockLen => 4#4
  | .ivLen => 5#4
  | .noSession => 6#4
  | .badMode => 7#4

/-- The bit of an algorithm in STATUS.SALG and CFG.ALG (R23, R26). -/
def algBit : Alg → BitVec 1
  | .des => 0#1
  | .deal => 1#1

/-- The value of a mode in STATUS.SMODE and CFG.MODE (R23, R26). -/
def modeBits : Mode → BitVec 3
  | .ecb => 0#3
  | .cbc => 1#3
  | .pcbc => 2#3
  | .cfb => 3#3
  | .ofb => 4#3
  | .ctr => 5#3
  | .randomDelta => 6#3

/-- CTRL as read: IE in bit [0], bits [31:1] zero (R22, spec/20_memory.md R64). -/
def State.ctrlWord (s : State) : Word := 0#31 ++ BitVec.ofBool s.ie

/-- CFG as read: bits [31:20] zero (R23, R64). -/
def State.cfgWord (s : State) : Word := 0#12 ++ s.cfg

/-- STATUS assembled from its fields, bit 31 first, reserved bits zero (R26, R64). -/
def State.statusWord (s : State) : Word :=
  0#4 ++ s.dnr ++ s.ecmd ++ 0#1 ++ modeBits s.smode ++ algBit s.salg ++ BitVec.ofBool s.sess ++ BitVec.ofBool s.kvl ++
    BitVec.ofBool s.kvd ++ errBits s.err ++ 0#1 ++ BitVec.ofBool s.haz ++ BitVec.ofBool s.done ++ BitVec.ofBool s.busy

/-- A host write to STATUS: write 1 to clear DONE and HAZ; every other bit is ignored (R27). -/
def State.writeStatus (s : State) (v : Word) : State :=
  { s with
    done := if v.getLsbD 1 then false else s.done
    haz := if v.getLsbD 2 then false else s.haz }

/-- The output `irq`, a level: `CTRL.IE AND STATUS.DONE` (R41, R307). -/
def State.irq (s : State) : Bool := s.ie && s.done

end Sys2Proof.Machine
end

