-- ==== Sys2Proof/Machine/BitPermutation.lean ====
section
/-! DEFINITION. The bit_permutation_unit's primitives (spec/40_bit_permutation.md R100 to R105), and the byte and bit
views of spec/00_scope.md R9. -/

namespace Sys2Proof.Machine

/-- Byte j of a byte string held in a bit vector, byte 0 most significant (R9, R61). -/
def byteAt {n : Nat} (s : BitVec n) (j : Nat) : Byte := s.extractLsb' (n - 8 * (j + 1)) 8

/-- The first m bytes of `s`, as a list in index order: `bytes` of R9. -/
def bytesOf {n : Nat} (s : BitVec n) (m : Nat) : List Byte := (List.range m).map (byteAt s)

/-- `bits(B)` of R9. -/
def bitsOf : (B : List Byte) → BitVec (8 * B.length)
  | [] => 0#0
  | b :: bs => (b ++ bitsOf bs).cast (by simp only [List.length_cons]; omega)

/-- The byte string B as a string of exactly n bits: n/8 bytes, any missing ones zero at the end. -/
def packBytes (n : Nat) (B : List Byte) : BitVec n :=
  (List.range (n / 8)).foldl (fun acc j => (acc <<< 8) ||| (B.getD j 0#8).setWidth n) 0#n

/-- `getBit` (R100): bit 0 is the most significant bit of byte 0. -/
def getBit (B : List Byte) (i : Nat) : Except PrimFail Bool :=
  match B[i / 8]? with
  | some b => .ok (((b >>> (7 - i % 8)) &&& 1#8) == 1#8)
  | none => .error .range

/-- `setBit` (R101). -/
def setBit (B : List Byte) (i : Nat) (v : Bool) : Except PrimFail (List Byte) :=
  match B[i / 8]? with
  | some b =>
    let m : Byte := 1#8 <<< (7 - i % 8)
    .ok (B.set (i / 8) (if v then b ||| m else b &&& ~~~m))
  | none => .error .range

/-- The input bit an entry of a table names, counted from index 0 (R102). -/
def sourceIndex (n : Nat) (msbFirst : Bool) (originOffset : Int) (t : Int) : Nat :=
  let adjusted := (t - originOffset).toNat
  if msbFirst then adjusted else n - 1 - adjusted

/-- An entry names a bit of the input (R102). -/
def entryInRange (n : Nat) (originOffset : Int) (t : Int) : Bool :=
  decide (0 ≤ t - originOffset) && decide (t - originOffset < n)

/-- The bits of `x` at the listed indices, in order, index 0 most significant on both sides. -/
def selectBits {n : Nat} (x : BitVec n) : (idx : List Nat) → BitVec idx.length
  | [] => 0#0
  | i :: is => BitVec.cons (x.getMsbD i) (selectBits x is)

/-- `permute` (R102): every entry is checked before any output is returned. -/
def permute {n : Nat} (x : BitVec n) (T : List Int) (msbFirst : Bool) (originOffset : Int) :
    Except PrimFail (BitVec T.length) :=
  if T.all (entryInRange n originOffset) then
    .ok ((selectBits x (T.map (sourceIndex n msbFirst originOffset))).cast (List.length_map _))
  else .error .range

/-- `permuteBytes` (R103). Its output for an m that is no multiple of 8 is undefined in the spec, and is refused by
name (spec/93_implementation_defined.md U5; log entry 13). -/
def permuteBytes (B : List Byte) (T : List Int) (msbFirst : Bool) (originOffset : Int) : Except PrimFail (List Byte) :=
  match permute (bitsOf B) T msbFirst originOffset with
  | .error e => .error e
  | .ok out => if T.length % 8 = 0 then .ok (bytesOf out (T.length / 8)) else .error .raggedOutput

/-- A wired permutation: `permute(x, T, true, 1)` for a table whose entries are in range (R105, R110). -/
def wire {n : Nat} (x : BitVec n) (T : List Nat) : BitVec T.length :=
  (selectBits x (T.map (· - 1))).cast (List.length_map _)

end Sys2Proof.Machine
end

