-- ==== Sys2Proof/Machine/Feistel.lean ====
section
/-! DEFINITION. The Feistel_iterator (spec/41_feistel_iterator.md): the functions of R121 and R122, the form with a
failing round transform, and the iterative build of R127 with its working registers. -/

namespace Sys2Proof.Machine

variable {h : Nat} {RK : Type}

/-- The first (most significant) half of a block (R121). -/
def leftHalf (x : BitVec (h + h)) : BitVec h := x.extractLsb' h h
/-- The second half of a block (R121). -/
def rightHalf (x : BitVec (h + h)) : BitVec h := x.extractLsb' 0 h

/-- One encryption round (R121): `(L, R) <- (R, L ⊕ F(R, k))`. -/
def roundEnc (F : BitVec h → RK → BitVec h) (p : BitVec h × BitVec h) (k : RK) : BitVec h × BitVec h :=
  (p.2, p.1 ^^^ F p.2 k)

/-- One decryption round (R122): `(L, R) <- (R ⊕ F(L, k), L)`. -/
def roundDec (F : BitVec h → RK → BitVec h) (p : BitVec h × BitVec h) (k : RK) : BitVec h × BitVec h :=
  (p.2 ^^^ F p.1 k, p.1)

/-- `FeistelEncrypt` (R121) for a round transform that cannot fail (R124): rounds ascending, output `L ‖ R`, no swap and
no whitening (R126, R129). -/
def feistelEncrypt (F : BitVec h → RK → BitVec h) (rk : List RK) (X : BitVec (h + h)) : BitVec (h + h) :=
  let p := rk.foldl (roundEnc F) (leftHalf X, rightHalf X)
  p.1 ++ p.2

/-- `FeistelDecrypt` (R122): rounds descending. -/
def feistelDecrypt (F : BitVec h → RK → BitVec h) (rk : List RK) (Y : BitVec (h + h)) : BitVec (h + h) :=
  let p := rk.reverse.foldl (roundDec F) (leftHalf Y, rightHalf Y)
  p.1 ++ p.2

/-- `FeistelEncrypt` as R121 writes it, for a transform that may fail: a failure propagates unchanged. -/
def feistelEncryptE (F : BitVec h → RK → Except PrimFail (BitVec h)) (rk : List RK) (X : BitVec (h + h)) :
    Except PrimFail (BitVec (h + h)) := do
  let p ← rk.foldlM (fun p k => do let f ← F p.2 k; return (p.2, p.1 ^^^ f)) (leftHalf X, rightHalf X)
  return p.1 ++ p.2

/-- `FeistelDecrypt` as R122 writes it, for a transform that may fail. -/
def feistelDecryptE (F : BitVec h → RK → Except PrimFail (BitVec h)) (rk : List RK) (Y : BitVec (h + h)) :
    Except PrimFail (BitVec (h + h)) := do
  let p ← rk.reverse.foldlM (fun p k => do let f ← F p.1 k; return (p.2 ^^^ f, p.1)) (leftHalf Y, rightHalf Y)
  return p.1 ++ p.2

/-- The working registers of the iterative build (R127): `ST.fi_L`, `ST.fi_R`, `ST.fi_round`. The round index, which the
spec gives no width, is a number (log entry 27). -/
structure FeistelWork (h : Nat) where
  fiL : BitVec h
  fiR : BitVec h
  fiRound : Nat
  deriving DecidableEq, Repr

/-- The start of a block: load the halves, and round 0 to encrypt or N-1 to decrypt (R127). -/
def fiStart (d : Dir) (N : Nat) (X : BitVec (h + h)) : FeistelWork h where
  fiL := leftHalf X
  fiR := rightHalf X
  fiRound := match d with
    | .enc => 0
    | .dec => N - 1

/-- One step of the iterative build: one loop body with `i = ST.fi_round`, then the index moves (R127). DESIGN CHOICE (log
entry 27): the spec gives `ST.fi_round` no width, so what the decrement after the step with i = 0 leaves is open; here it
stays 0, and an index outside the key sequence does nothing. Neither is ever used: the block is delivered before. -/
def fiStep (F : BitVec h → RK → BitVec h) (rk : List RK) (d : Dir) (w : FeistelWork h) : FeistelWork h :=
  match rk[w.fiRound]?, d with
  | none, _ => w
  | some k, .enc => { fiL := w.fiR, fiR := w.fiL ^^^ F w.fiR k, fiRound := w.fiRound + 1 }
  | some k, .dec => { fiL := w.fiR ^^^ F w.fiL k, fiR := w.fiL, fiRound := w.fiRound - 1 }

/-- The iterative build: N steps from the start, then `ST.fi_L ‖ ST.fi_R` is delivered (R127). -/
def feistelIterative (F : BitVec h → RK → BitVec h) (rk : List RK) (d : Dir) (X : BitVec (h + h)) : BitVec (h + h) :=
  let w := Nat.repeat (fiStep F rk d) rk.length (fiStart d rk.length X)
  w.fiL ++ w.fiR

/-- The unrolled build: all rounds in one step (R128). -/
def feistelUnrolled (F : BitVec h → RK → BitVec h) (rk : List RK) (d : Dir) (X : BitVec (h + h)) : BitVec (h + h) :=
  match d with
  | .enc => feistelEncrypt F rk X
  | .dec => feistelDecrypt F rk X

/-- The iterator of a build (R7, R127, R128). The machine takes the function, not the build (log entry 3). -/
def feistelBuild (impl : FeistelImpl) (F : BitVec h → RK → BitVec h) (rk : List RK) (d : Dir) (X : BitVec (h + h)) :
    BitVec (h + h) :=
  match impl with
  | .iterative => feistelIterative F rk d X
  | .unrolled => feistelUnrolled F rk d X

end Sys2Proof.Machine
end

