-- ==== Sys2Proof/Machine/Des.lean ====
section
/-! DEFINITION. DES: the wired permutations (spec/40_bit_permutation.md R106 to R109), the key schedule
(spec/42_des_key_schedule.md), the round function (spec/43_des_round_function.md) and the cipher (R168). -/

namespace Sys2Proof.Machine

/-- PC1 (R106). -/
def pc1 (k : Block64) : BitVec 56 := wire k pc1Table
/-- PC2 (R107). -/
def pc2 (cd : BitVec 56) : DesKey48 := wire cd pc2Table
/-- The expansion E (R108). -/
def expandE (r : BitVec 32) : BitVec 48 := wire r eTable
/-- The output permutation P (R109). -/
def permP (s : BitVec 32) : BitVec 32 := wire s pTable

/-- The round keys for the listed rotation amounts, from the halves C and D: rotation toward index 0, cumulative, then
PC2 of `C ‖ D` (R142, R143). -/
def subkeys : (shifts : List Nat) → BitVec 28 → BitVec 28 → List DesKey48
  | [], _, _ => []
  | n :: ns, C, D =>
    let C' := C.rotateLeft n
    let D' := D.rotateLeft n
    pc2 (C' ++ D') :: subkeys ns C' D'

/-- One round key for each rotation amount. -/
theorem subkeys_length (shifts : List Nat) (C D : BitVec 28) : (subkeys shifts C D).length = shifts.length := by
  induction shifts generalizing C D with
  | nil => rfl
  | cons n ns ih => simp [subkeys, ih]

/-- `DES_KeySchedule` on the fixed-width datapath: 16 round keys of 48 bits (R142, R145). The parity bits PC1 drops are
never examined (R144). -/
def desSchedule (k : Block64) : DesSchedule :=
  let cd := pc1 k
  ⟨(subkeys shiftTable (cd.extractLsb' 28 28) (cd.extractLsb' 0 28)).toArray, by
    rw [List.size_toArray, subkeys_length]; rfl⟩

/-- `DES_KeySchedule(K)` with its length check (R141, R142). -/
def desKeySchedule (K : List Byte) : Except PrimFail DesSchedule :=
  if K.length = 8 then .ok (desSchedule (packBytes 64 K)) else .error .keyLen

/-- Group k of x: `x{6k .. 6k+5}` (R162). -/
def groupOf (x : BitVec 48) (k : Nat) : BitVec 6 := x.extractLsb' (42 - 6 * k) 6

/-- The S-box row: the outer two bits, the first more significant (R163). -/
def sboxRow (g : BitVec 6) : Nat := 2 * (g.getMsbD 0).toNat + (g.getMsbD 5).toNat

/-- The S-box column: the middle four bits, the first most significant (R163). -/
def sboxCol (g : BitVec 6) : Nat :=
  8 * (g.getMsbD 1).toNat + 4 * (g.getMsbD 2).toNat + 2 * (g.getMsbD 3).toNat + (g.getMsbD 4).toNat

/-- The nibble S-box k gives for its group (R164). -/
def sboxNibble (x : BitVec 48) (k : Nat) : BitVec 4 := sboxAt k (sboxRow (groupOf x k)) (sboxCol (groupOf x k))

/-- The substitution step: nibble k at bits 4k to 4k+3, so group 0's nibble is the most significant (R165). -/
def substitute (x : BitVec 48) : BitVec 32 :=
  sboxNibble x 0 ++ sboxNibble x 1 ++ sboxNibble x 2 ++ sboxNibble x 3 ++ sboxNibble x 4 ++ sboxNibble x 5 ++
    sboxNibble x 6 ++ sboxNibble x 7

/-- The substitution step exposed on a bit string of any length: `fail WIDTH` unless it is 48 bits long (R166). -/
def substituteStep {n : Nat} (x : BitVec n) : Except PrimFail (BitVec 32) :=
  if h : n = 48 then .ok (substitute (x.cast h)) else .error .width

/-- `DES_F(R, K)` (R160, R161, R165): one function for both directions (R167). -/
def desF (R : BitVec 32) (K : DesKey48) : BitVec 32 := permP (substitute (expandE R ^^^ K))

/-- `DES_Encrypt` (R168). -/
def desEncrypt (rk : DesSchedule) (X : Block64) : Block64 := feistelEncrypt (h := 32) desF rk.toList X

/-- `DES_Decrypt` (R168). -/
def desDecrypt (rk : DesSchedule) (Y : Block64) : Block64 := feistelDecrypt (h := 32) desF rk.toList Y

end Sys2Proof.Machine
end

