-- ==== Sys2Proof/Machine/Deal.lean ====
section
/-! DEFINITION. DEAL (spec/44_deal_round_engine.md): the key schedule, the round transform over DEAL's own DES, the
cipher, and the re-keying of the internal DES instance. -/

namespace Sys2Proof.Machine

/-- `NR(L)` (R180): none for a length the cipher does not accept. -/
def dealRounds (L : Nat) : Option Nat :=
  match L with
  | 16 => some 6
  | 24 => some 8
  | 32 => some 12
  | _ => none

/-- The window of round i: up to 8 bytes of the master key from `(8·i) mod L`, right-padded with zero bytes (R181). -/
def dealWindow (MK : List Byte) (i : Nat) : List Byte :=
  let w := (MK.drop ((8 * i) % MK.length)).take 8
  w ++ List.replicate (8 - w.length) 0x00#8

/-- `DEAL_KeySchedule` (R181, R183). -/
def dealKeySchedule (MK : List Byte) : Except PrimFail (List Block64) :=
  match dealRounds MK.length with
  | none => .error .keyLen
  | some nr => .ok ((List.range nr).map fun i => packBytes 64 (dealWindow MK i))

/-- `DEAL_F` on the fixed-width datapath: DES forward, under the schedule of the round key (R185, R186). -/
def dealF (H : Block64) (rk : Block64) : Block64 := desEncrypt (desSchedule rk) H

/-- `DEAL_F` with its round-key check (R185). -/
def dealFChecked (H : Block64) (rk : List Byte) : Except PrimFail Block64 :=
  if rk.length = 8 then do
    let s ← desKeySchedule rk
    return desEncrypt s H
  else .error .keyLen

/-- `DEAL_Encrypt` (R187). -/
def dealEncrypt (rk : List Block64) (X : Block128) : Block128 := feistelEncrypt (h := 64) dealF rk X

/-- `DEAL_Decrypt` (R187): its rounds run DES forward too. -/
def dealDecrypt (rk : List Block64) (Y : Block128) : Block128 := feistelDecrypt (h := 64) dealF rk Y

/-- The internal schedule after DEAL_Encrypt: that of the last round key used, `rk[NR-1]` (R188; log entry 24). -/
def innerAfterEnc (rk : List Block64) (inner : DesSchedule) : DesSchedule :=
  match rk.getLast? with
  | some k => desSchedule k
  | none => inner

/-- The internal schedule after DEAL_Decrypt: that of `rk[0]` (R188). -/
def innerAfterDec (rk : List Block64) (inner : DesSchedule) : DesSchedule :=
  match rk.head? with
  | some k => desSchedule k
  | none => inner

/-- DEAL's working state with its internally owned DES instance: the schedule `ST.deal_inner_rk` and the two halves. -/
structure DealWork where
  inner : DesSchedule
  L : Block64
  R : Block64
  deriving DecidableEq, Repr

/-- One encryption round as R185 writes it: re-key the internal DES, then encrypt with the schedule just written. -/
def dealRekeyRoundEnc (w : DealWork) (rk : Block64) : DealWork :=
  let inner := desSchedule rk
  { inner := inner, L := w.R, R := w.L ^^^ desEncrypt inner w.R }

/-- One decryption round as R185 writes it. -/
def dealRekeyRoundDec (w : DealWork) (rk : Block64) : DealWork :=
  let inner := desSchedule rk
  { inner := inner, L := w.R ^^^ desEncrypt inner w.L, R := w.L }

/-- DEAL with the internal DES threaded through its rounds, in sequence (R185, R187, R188). -/
def dealRekeying (d : Dir) (inner : DesSchedule) (rk : List Block64) (X : Block128) : DesSchedule × Block128 :=
  let start : DealWork := { inner := inner, L := leftHalf (h := 64) X, R := rightHalf (h := 64) X }
  let w := match d with
    | .enc => rk.foldl dealRekeyRoundEnc start
    | .dec => rk.reverse.foldl dealRekeyRoundDec start
  (w.inner, w.L ++ w.R)

end Sys2Proof.Machine
end

