-- ==== Sys2Proof/Machine/Operands.lean ====
section
/-! DEFINITION. The operands of the commands: the fields of CFG (spec/10_state.md R23), the block size (spec/00_scope.md
R6), and the byte strings taken from the buffers (spec/30_encoding.md R86). -/

namespace Sys2Proof.Machine

/-- CFG.ALG, bit [0]: 0 = DES, 1 = DEAL (R23). -/
def State.cfgAlg (s : State) : Alg := if s.cfg.extractLsb' 0 1 = 0#1 then .des else .deal

/-- CFG.MODE, bits [3:1], as stored: 7 is reserved (R23, R24). -/
def State.cfgMode (s : State) : BitVec 3 := s.cfg.extractLsb' 1 3

/-- CFG.KEYLEN, bits [9:4]: bytes (R23). -/
def State.cfgKeylen (s : State) : Nat := (s.cfg.extractLsb' 4 6).toNat

/-- CFG.IVLEN, bits [14:10]: bytes (R23). -/
def State.cfgIvlen (s : State) : Nat := (s.cfg.extractLsb' 10 5).toNat

/-- CFG.DLEN, bits [19:15]: bytes (R23). -/
def State.cfgDlen (s : State) : Nat := (s.cfg.extractLsb' 15 5).toNat

/-- The mode a MODE value names; none for the reserved value 7 (R24). -/
def modeOfBits (b : BitVec 3) : Option Mode :=
  match b.toNat with
  | 0 => some .ecb
  | 1 => some .cbc
  | 2 => some .pcbc
  | 3 => some .cfb
  | 4 => some .ofb
  | 5 => some .ctr
  | 6 => some .randomDelta
  | _ => none

/-- `bs(ALG)` in bytes (R6). -/
def blockSize : Alg → Nat
  | .des => 8
  | .deal => 16

/-- `keyvalid(a)`: STATUS.KVD for DES, STATUS.KVL for DEAL (spec/46_commands.md). -/
def State.keyValid (s : State) : Alg → Bool
  | .des => s.kvd
  | .deal => s.kvl

/-- `K = KEYBUF[0 .. KEYLEN-1]` (R86). -/
def State.keyOperand (s : State) : List Byte := (bytesOf s.keybuf 32).take s.cfgKeylen

/-- The first 8 bytes of a 16-byte buffer (R86 with bs = 8). -/
def first8 (b : Block128) : Block64 := b.extractLsb' 64 64

/-- An 8-byte string followed by zero bytes to 16 (R30, R202). -/
def zeroFill (b : Block64) : Block128 := b ++ 0#64

/-- `B[0 .. bs-1] ‖ zero bytes to 16` for the block size of an algorithm (R201). -/
def firstBlock (a : Alg) (b : Block128) : Block128 :=
  match a with
  | .des => zeroFill (first8 b)
  | .deal => b

/-- `Enc(x)` of an algorithm on the first bs bytes of a buffer, zero-filled to 16 (R204, R232). -/
def State.cipherEnc (s : State) (a : Alg) (x : Block128) : Block128 :=
  match a with
  | .des => zeroFill (desEncrypt s.rkDes (first8 x))
  | .deal => dealEncrypt s.rkDeal x

/-- `Dec(y)` likewise (R204, R233). -/
def State.cipherDec (s : State) (a : Alg) (y : Block128) : Block128 :=
  match a with
  | .des => zeroFill (desDecrypt s.rkDes (first8 y))
  | .deal => dealDecrypt s.rkDeal y

/-- The hidden schedule after a block in the given cipher direction: only DEAL writes it (R188, R232, R235). -/
def State.innerAfter (s : State) (a : Alg) (d : Dir) : DesSchedule :=
  match a, d with
  | .des, _ => s.dealInnerRk
  | .deal, .enc => innerAfterEnc s.rkDeal s.dealInnerRk
  | .deal, .dec => innerAfterDec s.rkDeal s.dealInnerRk

end Sys2Proof.Machine
end

