-- ==== Sys2Proof/Machine/Ops.lean ====
section
/-! DEFINITION. The shared operations of DES_core: the register words and their access (spec/20_memory.md R60 to R64),
acceptance and completion of a command (spec/60_exceptions.md R302, R303), and reset (spec/70_reset_and_hazards.md R330). -/

namespace Sys2Proof.Machine

/-- The register word an index names (spec/10_state.md R20). -/
def regOf (idx : Idx) : Reg :=
  let n := idx.toNat
  if n = 0x00 then .ctrl
  else if n = 0x01 then .cfg
  else if n = 0x02 then .cmd
  else if n = 0x03 then .status
  else if n < 0x0C then .key (Fin.ofNat 8 (n - 0x04))
  else if n < 0x10 then .din (Fin.ofNat 4 (n - 0x0C))
  else if n < 0x14 then .dout (Fin.ofNat 4 (n - 0x10))
  else if n < 0x18 then .iv (Fin.ofNat 4 (n - 0x14))
  else if n < 0x1C then .delta (Fin.ofNat 4 (n - 0x18))
  else if n < 0x20 then .cv (Fin.ofNat 4 (n - 0x1C))
  else .reserved (Fin.ofNat 32 (n - 0x20))

/-- The index of a register word (R20). -/
def idxOf : Reg → Idx
  | .ctrl => 0x00#6
  | .cfg => 0x01#6
  | .cmd => 0x02#6
  | .status => 0x03#6
  | .key w => BitVec.ofNat 6 (0x04 + w.val)
  | .din w => BitVec.ofNat 6 (0x0C + w.val)
  | .dout w => BitVec.ofNat 6 (0x10 + w.val)
  | .iv w => BitVec.ofNat 6 (0x14 + w.val)
  | .delta w => BitVec.ofNat 6 (0x18 + w.val)
  | .cv w => BitVec.ofNat 6 (0x1C + w.val)
  | .reserved w => BitVec.ofNat 6 (0x20 + w.val)

/-- Word w of a buffer: bytes 4w to 4w+3, from bit 31 down to bit 0 (R61). -/
def wordAt {n : Nat} (b : BitVec n) (w : Nat) : Word := b.extractLsb' (n - 32 * (w + 1)) 32

/-- The buffer with word w replaced (R61, R63). -/
def setWordAt {n : Nat} (b : BitVec n) (w : Nat) (v : Word) : BitVec n :=
  let sh := n - 32 * (w + 1)
  (b &&& ~~~((0xFFFFFFFF#32).setWidth n <<< sh)) ||| (v.setWidth n <<< sh)

/-- The value of a register word (R64); CMD and the reserved words read zero (R21, R25). -/
def State.readReg (s : State) : Reg → Word
  | .ctrl => s.ctrlWord
  | .cfg => s.cfgWord
  | .cmd => 0#32
  | .status => s.statusWord
  | .key w => wordAt s.keybuf w.val
  | .din w => wordAt s.dinbuf w.val
  | .dout w => wordAt s.doutbuf w.val
  | .iv w => wordAt s.ivbuf w.val
  | .delta w => wordAt s.deltabuf w.val
  | .cv w => wordAt s.cvbuf w.val
  | .reserved _ => 0#32

/-- The value `HostRead(idx)` returns while `rst` is released (R64). It has no side effect. -/
def State.hostRead (s : State) (idx : Idx) : Word := s.readReg (regOf idx)

/-- Acceptance of a command word (R302): nothing else changes, ECMD included. -/
def State.accept (s : State) (c : Word) : State :=
  { s with pending := some c, busy := true, done := false, err := .ok }

/-- A write that a pending command turns away: the register keeps its value and HAZ is set (R63, R340). -/
def State.unlessBusy (s : State) (s' : State) : State := if s.busy then { s with haz := true } else s'

/-- `HostWrite(idx, v)` by register (R63). -/
def State.writeReg (s : State) (r : Reg) (v : Word) : State :=
  match r with
  | .ctrl => { s with ie := v.getLsbD 0 }
  | .cfg => s.unlessBusy { s with cfg := v.extractLsb' 0 20 }
  | .cmd => s.unlessBusy (s.accept v)
  | .status => s.writeStatus v
  | .key w => s.unlessBusy { s with keybuf := setWordAt s.keybuf w.val v }
  | .din w => s.unlessBusy { s with dinbuf := setWordAt s.dinbuf w.val v }
  | .dout _ => s
  | .iv w => s.unlessBusy { s with ivbuf := setWordAt s.ivbuf w.val v }
  | .delta w => s.unlessBusy { s with deltabuf := setWordAt s.deltabuf w.val v }
  | .cv _ => s
  | .reserved _ => s

/-- `HostWrite(idx, v)` while `rst` is released (R63). -/
def State.hostWrite (s : State) (idx : Idx) (v : Word) : State := s.writeReg (regOf idx) v

/-- Completion, the analogue of taking an exception (R303, R308): the outcome and the opcode are recorded, DONE is set,
and no command is pending. -/
def State.complete (s : State) (op : BitVec 8) (e : ErrCode) : State :=
  { s with busy := false, done := true, err := e, ecmd := op, pending := none }

/-- The end of a command from the result of its execution: a failing command changes nothing but the completion fields
(R303, R305). -/
def State.finish (s : State) (op : BitVec 8) (result : Except ErrCode State) : State :=
  match result with
  | .ok s' => s'.complete op .ok
  | .error e => s.complete op e

/-- The acknowledgement of a completion, the analogue of returning from an exception: `wr STATUS, 0x00000002` drops DONE
and with it `irq` (R308). -/
def State.ackDone (s : State) : State := s.hostWrite (idxOf .status) 0x00000002#32

/-- Every state element of DES_core to its reset value (R43, R330); the three unspecified stores take free values
(log entry 5). What belongs to the outside world stays: the pin, the coming inputs, the last word read. -/
def State.resetCore (s : State) : State :=
  { State.reset with
    rkDes := Config.freeRkDes s.draws
    rkDeal := Config.freeRkDeal s.draws
    nrDeal := (Config.freeRkDeal s.draws).length
    dealInnerRk := Config.freeInnerRk s.draws
    rst := s.rst
    inputs := s.inputs
    readData := s.readData
    draws := s.draws + 1 }

/-- The pin `rst` takes a level (R330, R331): every state element holds its reset value while `rst` is asserted and once
it is released; releasing a released pin does nothing. A pending command is abandoned. -/
def State.setPin (s : State) (level : Bool) : State :=
  if level then { s.resetCore with rst := true }
  else if s.rst then { s.resetCore with rst := false }
  else s

/-- One host transaction (R60, R330): while `rst` is asserted a write has no effect and a read returns zero. -/
def State.transact (s : State) : Transaction → State
  | .write idx v => if s.rst then s else s.hostWrite idx v
  | .read idx => { s with readData := if s.rst then 0#32 else s.hostRead idx }

end Sys2Proof.Machine
end

