-- ==== Sys2Proof/Machine/Cipher.lean ====
section
/-! DEFINITION. The key and cipher commands SETKEY, ENCRYPT and DECRYPT (spec/46_commands.md R231 to R233). -/

namespace Sys2Proof.Machine

/-- The execution of SETKEY (R231): the schedules cannot fail once KEYLEN is legal, and the store is replaced whole
(spec/10_state.md R34, R35). -/
def setkeyResult (s : State) : Except ErrCode State :=
  match s.cfgAlg with
  | .des =>
    if s.cfgKeylen ≠ 8 then .error .keyLen
    else match desKeySchedule s.keyOperand with
      | .ok rk => .ok { s with rkDes := rk, kvd := true }
      | .error _ => .error .keyLen
  | .deal =>
    match dealRounds s.cfgKeylen with
    | none => .error .keyLen
    | some nr =>
      match dealKeySchedule s.keyOperand with
      | .ok rk => .ok { s with rkDeal := rk, nrDeal := nr, dnr := BitVec.ofNat 4 nr, kvl := true }
      | .error _ => .error .keyLen

/-- The checks of ENCRYPT and DECRYPT, in order: BLOCK_LEN, then NO_KEY (R232, R306). -/
def cipherCheck (s : State) : Except ErrCode Alg :=
  if s.cfgDlen ≠ blockSize s.cfgAlg then .error .blockLen
  else if s.keyValid s.cfgAlg = false then .error .noKey
  else .ok s.cfgAlg

/-- The execution of ENCRYPT (R232). -/
def encryptResult (s : State) : Except ErrCode State :=
  match cipherCheck s with
  | .error e => .error e
  | .ok a => .ok { s with doutbuf := s.cipherEnc a s.dinbuf, dealInnerRk := s.innerAfter a .enc }

/-- The execution of DECRYPT (R233). -/
def decryptResult (s : State) : Except ErrCode State :=
  match cipherCheck s with
  | .error e => .error e
  | .ok a => .ok { s with doutbuf := s.cipherDec a s.dinbuf, dealInnerRk := s.innerAfter a .dec }

/-- SETKEY (R231). -/
def execSetkey (s : State) : Host.Outcome State Fault Refusal := .next (s.finish 0x01#8 (setkeyResult s))

/-- ENCRYPT (R232). -/
def execEncrypt (s : State) : Host.Outcome State Fault Refusal := .next (s.finish 0x02#8 (encryptResult s))

/-- DECRYPT (R233). -/
def execDecrypt (s : State) : Host.Outcome State Fault Refusal := .next (s.finish 0x03#8 (decryptResult s))

end Sys2Proof.Machine
end

