-- ==== Sys2Proof/Machine/Control.lean ====
section
/-! DEFINITION. The control commands NOP and SOFTRESET (spec/46_commands.md R230, R238). -/

namespace Sys2Proof.Machine

/-- NOP (R230): no effect but its completion. -/
def execNop (s : State) : Host.Outcome State Fault Refusal :=
  .next (s.finish 0x00#8 (.ok s))

/-- SOFTRESET (R238; spec/70_reset_and_hazards.md R332): every state element to its reset value, then its completion. -/
def execSoftreset (s : State) : Host.Outcome State Fault Refusal :=
  .next (s.finish 0x20#8 (.ok s.resetCore))

end Sys2Proof.Machine
end

