-- ==== Sys2Proof/Machine/Modes.lean ====
section
/-! DEFINITION. The chaining equations of the seven modes (spec/45_mode_controller.md R205 to R211), over any block cipher
on n-bit blocks. A block is a byte string read most significant byte first, so `+` on `BitVec n` is the big-endian
addition modulo 256^bs of spec/00_scope.md R11. -/

namespace Sys2Proof.Machine

variable {n : Nat}

/-- The output block and the new chaining value of one block command. -/
structure Chained (n : Nat) where
  Y : BitVec n
  CV : BitVec n
  deriving DecidableEq, Repr

/-- The "encrypt" row of each mode (R205 to R211). -/
def chainEnc (m : Mode) (E : BitVec n → BitVec n) (D X CV : BitVec n) : Chained n :=
  match m with
  | .ecb => { Y := E X, CV := CV }
  | .cbc => let Y := E (X ^^^ CV); { Y := Y, CV := Y }
  | .pcbc => let Y := E (X ^^^ CV); { Y := Y, CV := X ^^^ Y }
  | .cfb => let Y := E CV ^^^ X; { Y := Y, CV := Y }
  | .ofb => let O := E CV; { Y := X ^^^ O, CV := O }
  | .ctr => { Y := X ^^^ E CV, CV := CV + 1 }
  | .randomDelta => { Y := X ^^^ E CV, CV := CV + D }

/-- The "decrypt" row of each mode (R205 to R211); CFB, OFB, CTR and RandomDelta never call the inverse cipher (R213). -/
def chainDec (m : Mode) (E Einv : BitVec n → BitVec n) (D X CV : BitVec n) : Chained n :=
  match m with
  | .ecb => { Y := Einv X, CV := CV }
  | .cbc => { Y := Einv X ^^^ CV, CV := X }
  | .pcbc => let Y := Einv X ^^^ CV; { Y := Y, CV := Y ^^^ X }
  | .cfb => { Y := E CV ^^^ X, CV := X }
  | .ofb => let O := E CV; { Y := X ^^^ O, CV := O }
  | .ctr => { Y := X ^^^ E CV, CV := CV + 1 }
  | .randomDelta => { Y := X ^^^ E CV, CV := CV + D }

/-- A direction's row. -/
def chain (d : Dir) (m : Mode) (E Einv : BitVec n → BitVec n) (D X CV : BitVec n) : Chained n :=
  match d with
  | .enc => chainEnc m E D X CV
  | .dec => chainDec m E Einv D X CV

/-- The cipher direction a block command runs: the inverse only to decrypt under ECB, CBC and PCBC (R213). -/
def cipherDir (d : Dir) (m : Mode) : Dir :=
  match d, m with
  | .dec, .ecb => .dec
  | .dec, .cbc => .dec
  | .dec, .pcbc => .dec
  | .dec, .cfb => .enc
  | .dec, .ofb => .enc
  | .dec, .ctr => .enc
  | .dec, .randomDelta => .enc
  | .enc, _ => .enc

/-- A run of blocks in one direction: each block's output, with the chaining value it leaves (R215). -/
def chainRun (d : Dir) (m : Mode) (E Einv : BitVec n → BitVec n) (D : BitVec n) : List (BitVec n) → BitVec n → List (Chained n)
  | [], _ => []
  | X :: Xs, CV =>
    let c := chain d m E Einv D X CV
    c :: chainRun d m E Einv D Xs c.CV

end Sys2Proof.Machine
end

