-- ==== Sys2Proof/Machine/Session.lean ====
section
/-! DEFINITION. The session commands MODE_INIT, MODE_ENC, MODE_DEC and MODE_CLEAR (spec/46_commands.md R234 to R237) over
the chaining controller (spec/45_mode_controller.md R200 to R204). -/

namespace Sys2Proof.Machine

/-- Opening a session (R201): algorithm, mode, IV and delta are latched. -/
def State.openSession (s : State) (m : Mode) : State :=
  { s with
    sess := true
    salg := s.cfgAlg
    smode := m
    cvbuf := if m = .ecb then 0#128 else firstBlock s.cfgAlg s.ivbuf
    sDelta := if m = .randomDelta then firstBlock s.cfgAlg s.deltabuf else 0#128 }

/-- Closing a session (R203). -/
def State.closeSession (s : State) : State :=
  { s with sess := false, salg := .des, smode := .ecb, cvbuf := 0#128, sDelta := 0#128 }

/-- The execution of MODE_INIT (R234): BAD_MODE, then IV_LEN, which ECB does not check. -/
def modeInitResult (s : State) : Except ErrCode State :=
  match modeOfBits s.cfgMode with
  | none => .error .badMode
  | some m =>
    if m ≠ .ecb ∧ s.cfgIvlen ≠ blockSize s.cfgAlg then .error .ivLen
    else .ok (s.openSession m)

/-- The checks of MODE_ENC and MODE_DEC, in order: NO_SESSION, BLOCK_LEN, NO_KEY (R235, R306). -/
def sessionCheck (s : State) : Except ErrCode Alg :=
  if s.sess = false then .error .noSession
  else if s.cfgDlen ≠ blockSize s.salg then .error .blockLen
  else if s.keyValid s.salg = false then .error .noKey
  else .ok s.salg

/-- The session's row on the current block, each result zero-filled to 16 bytes (R204): under DES the first 8 bytes of
DINBUF, CVBUF and ST.s_delta take part, under DEAL all 16. -/
def State.sessionChain (s : State) (d : Dir) : Alg → Chained 128
  | .des =>
    let c := chain d s.smode (desEncrypt s.rkDes) (desDecrypt s.rkDes) (first8 s.sDelta) (first8 s.dinbuf) (first8 s.cvbuf)
    { Y := zeroFill c.Y, CV := zeroFill c.CV }
  | .deal => chain d s.smode (dealEncrypt s.rkDeal) (dealDecrypt s.rkDeal) s.sDelta s.dinbuf s.cvbuf

/-- The execution of one block command in a direction (R235, R236). -/
def modeBlockResult (d : Dir) (s : State) : Except ErrCode State :=
  match sessionCheck s with
  | .error e => .error e
  | .ok a =>
    let c := s.sessionChain d a
    .ok { s with doutbuf := c.Y, cvbuf := c.CV, dealInnerRk := s.innerAfter a (cipherDir d s.smode) }

/-- MODE_INIT (R234). -/
def execModeInit (s : State) : Host.Outcome State Fault Refusal := .next (s.finish 0x10#8 (modeInitResult s))

/-- MODE_ENC (R235). -/
def execModeEnc (s : State) : Host.Outcome State Fault Refusal := .next (s.finish 0x11#8 (modeBlockResult .enc s))

/-- MODE_DEC (R236). -/
def execModeDec (s : State) : Host.Outcome State Fault Refusal := .next (s.finish 0x12#8 (modeBlockResult .dec s))

/-- MODE_CLEAR (R237): never fails; on an IDLE controller it changes nothing but STATUS. -/
def execModeClear (s : State) : Host.Outcome State Fault Refusal := .next (s.finish 0x13#8 (.ok s.closeSession))

end Sys2Proof.Machine
end

