-- ==== Sys2Proof/Machine/Dispatch.lean ====
section
/-! DEFINITION. The dispatch: one arm per command. -/

namespace Sys2Proof.Machine

def exec (i : Instr) (s : State) : Host.Outcome State Fault Refusal :=
  match i with
  | .nop => Sys2Proof.Machine.execNop s
  | .setkey => Sys2Proof.Machine.execSetkey s
  | .encrypt => Sys2Proof.Machine.execEncrypt s
  | .decrypt => Sys2Proof.Machine.execDecrypt s
  | .modeInit => Sys2Proof.Machine.execModeInit s
  | .modeEnc => Sys2Proof.Machine.execModeEnc s
  | .modeDec => Sys2Proof.Machine.execModeDec s
  | .modeClear => Sys2Proof.Machine.execModeClear s
  | .softreset => Sys2Proof.Machine.execSoftreset s

end Sys2Proof.Machine
end

