-- ==== Sys2Proof/Machine/Agents.lean ====
section
/-! DEFINITION. The moves of the agents (spec/20_memory.md R66): the core's turn, and what an input does. -/

namespace Sys2Proof.Machine

/-- Decode and execute the command word c, and complete (spec/60_exceptions.md R303). A word that is none of the nine
commands completes with ILLEGAL_CMD and changes nothing else (spec/30_encoding.md R83, R84, R305). -/
def runWord (c : Word) (s : State) : Host.Outcome State Fault Refusal :=
  match decode c with
  | .ok i => exec i s
  | .error _ => .next (s.finish (opcOf c) (.error .illegalCmd))

/-- The core's step (R66, R303): enabled while a command is pending and `rst` is released; otherwise the core idles. -/
def coreTurn (s : State) : Host.Outcome State Fault Refusal :=
  match s.pending with
  | none => .next s
  | some c => if s.rst then .next s else runWord c s

/-- One move of the machine: the next input acts; with no input left the core has the turn, so that a pending command
completes (the weak fairness of R303; log entry 2). -/
def move (s : State) : Host.Outcome State Fault Refusal :=
  match s.inputs with
  | [] => coreTurn s
  | .core :: rest => coreTurn { s with inputs := rest }
  | .host t :: rest => .next (State.transact { s with inputs := rest } t)
  | .pin level :: rest => .next (State.setPin { s with inputs := rest } level)

/-- The command word c accepted on a released core, with the core's turn next (log entry 9). -/
def State.placeCommand (s : State) (c : Word) : State :=
  { s.accept c with rst := false, inputs := .core :: s.inputs }

end Sys2Proof.Machine
end

