-- ==== Sys2Proof/Machine/Step.lean ====
section
/-! DEFINITION. One step of DES_core, and the placing of a command word where the next step runs it. -/

namespace Sys2Proof.Machine

/-- One step. -/
def step (s : State) : Host.Outcome State Fault Refusal := move s

/-- `s` with an opcode-table word accepted as the pending command and the core's turn next, so that the very next step
runs it. DES_core fetches nothing (spec/20_memory.md R69): a command is the data of one CMD write, and this stands for
the host's write of it (log entry 9). -/
def State.withFetchWord (s : State) (nbits w : Nat) : State := s.placeCommand (tableWord nbits w)

end Sys2Proof.Machine
end

