-- ==== Sys2Proof/Machine/HostAsm.lean ====
section
/-! DEFINITION. The host's assembler (spec/30_encoding.md R87, R88): what each line expands to, and a host program run on the
machine. The number of polls a `wait` loop makes is decided by what its reads return (log entry 26). -/

namespace Sys2Proof.Machine

/-- What a host procedure answers: a value or a host error, with the machine as it leaves it. -/
abbrev HostResult (α : Type) := Host.Outcome (Except HostError α × State) Fault Refusal

/-- One host procedure after another; a host error of the first stops both. -/
def hostThen {α β : Type} (r : HostResult α) (f : α → State → HostResult β) : HostResult β :=
  match r with
  | .next (.ok a, s) => f a s
  | .next (.error e, s) => .next (.error e, s)
  | .fault x => .fault x
  | .refused x => .refused x

/-- A byte string as register words: four bytes a word, the unused low-order bytes of the last word zero (R61, R88). -/
def wordsOf (bs : List Byte) : List Word :=
  (List.range ((bs.length + 3) / 4)).map fun w => packBytes 32 ((bs.drop (4 * w)).take 4)

/-- The writes that load words into consecutive register words from an index on (R88). -/
def loadFrom (base : Idx) : List Word → List HostOp
  | [] => []
  | v :: vs => .access (.write base v) :: loadFrom (base + 1#6) vs

/-- The expansion of a line (R87, R88). -/
def expand : AsmLine → List HostOp
  | .wr r v => [.access (.write (idxOf r) v)]
  | .rd r => [.access (.read (idxOf r))]
  | .cmd i => [.access (.write (idxOf .cmd) (encode i))]
  | .cfg o => [.access (.write (idxOf .cfg) (encodeCfg o))]
  | .ldkey bs => loadFrom (idxOf (.key 0)) (wordsOf bs)
  | .ldblk bs => loadFrom (idxOf (.din 0)) (wordsOf bs)
  | .ldiv bs => loadFrom (idxOf (.iv 0)) (wordsOf bs)
  | .lddelta bs => loadFrom (idxOf (.delta 0)) (wordsOf bs)
  | .wait => [.pollWhileBusy]
  | .run i => [.access (.write (idxOf .cmd) (encode i)), .pollWhileBusy]
  | .ackdone => [.access (.write (idxOf .status) 0x00000002#32)]

/-- The read of STATUS in the loop of `wait`. -/
def State.poll (s : State) : State := s.transact (.read (idxOf .status))

/-- `L: rd STATUS -> s ; if s[0] = 1 goto L` (R88). While the reads return BUSY = 1 the loop goes on, and after `turn` of
them the core has its turn (R66, R303). A read with s[0] = 0 ends it. If BUSY = 1 is read even after the core's turn,
nothing is pending and no later read differs: the loop never ends (log entry 26). -/
def waitLoop : (turn : Nat) → State → HostResult Unit
  | 0, s =>
    match coreTurn s with
    | .next s' => .next (if s'.poll.readData.getLsbD 0 then .error .waitNeverEnds else .ok (), s'.poll)
    | .fault x => .fault x
    | .refused x => .refused x
  | turn + 1, s => if s.poll.readData.getLsbD 0 then waitLoop turn s.poll else .next (.ok (), s.poll)

/-- One operation of an expansion. -/
def performOp (turn : Nat) (o : HostOp) (s : State) : HostResult Unit :=
  match o with
  | .access t => .next (.ok (), s.transact t)
  | .pollWhileBusy => waitLoop turn s

/-- The operations of an expansion, in order. -/
def performOps (turn : Nat) : List HostOp → State → HostResult Unit
  | [], s => .next (.ok (), s)
  | o :: os, s => hostThen (performOp turn o s) fun _ s' => performOps turn os s'

/-- A line (R87, R88), with `turn` polls before the core's turn. -/
def performLine (turn : Nat) (l : AsmLine) (s : State) : HostResult Unit := performOps turn (expand l) s

/-- A host program: its lines in program order, with the core's turns between them where they fall (R66). -/
def runProgram : List HostMove → State → HostResult Unit
  | [], s => .next (.ok (), s)
  | .line l turn :: ms, s => hostThen (performLine turn l s) fun _ s' => runProgram ms s'
  | .core :: ms, s =>
    match coreTurn s with
    | .next s' => runProgram ms s'
    | .fault x => .fault x
    | .refused x => .refused x

end Sys2Proof.Machine
end

