-- ==== Sys2Proof/Machine/HostPadding.lean ====
section
/-! DEFINITION. The host's padding schemes (spec/47_host_padding.md R263 to R272): pure functions of the host layer; the
machine pads nothing (spec/00_scope.md R5). -/

namespace Sys2Proof.Machine

/-- `n = bs - (len(P) mod bs)`, between 1 and bs (47_host_padding.md section 2). -/
def padCount (bs : Nat) (P : List Byte) : Nat := bs - P.length % bs

/-- `pad` (R263, R265, R267, R269). `draw` gives ISO10126's arbitrary bytes, a free input (log entry 15). -/
def pad (scheme : PadScheme) (bs : Nat) (draw : Nat → Byte) (P : List Byte) : List Byte :=
  let n := padCount bs P
  match scheme with
  | .zeros => P ++ List.replicate (n % bs) 0x00#8
  | .pkcs7 => P ++ List.replicate n (BitVec.ofNat 8 n)
  | .ansix923 => P ++ List.replicate (n - 1) 0x00#8 ++ [BitVec.ofNat 8 n]
  | .iso10126 => P ++ (List.range (n - 1)).map draw ++ [BitVec.ofNat 8 n]

/-- The length byte's bounds: `m = 0`, `m > bs` or `m > len(Q)` fails (R266, R268). -/
def padLengthOk (bs : Nat) (Q : List Byte) (m : Nat) : Bool := decide (m ≠ 0) && decide (m ≤ bs) && decide (m ≤ Q.length)

/-- Unpadding by the length byte, with the filler checked or not (R266, R268). -/
def unpadByLength (checkFiller : Bool) (bs : Nat) (Q : List Byte) : Except HostError (List Byte) :=
  match Q.getLast? with
  | none => .error .pad
  | some b =>
    let m := b.toNat
    if padLengthOk bs Q m && (!checkFiller || (Q.drop (Q.length - m)).all (· == b)) then .ok (Q.take (Q.length - m))
    else .error .pad

/-- `unpad` (R264, R266, R268, R270). Zeros never fails and strips every trailing zero byte. -/
def unpad (scheme : PadScheme) (bs : Nat) (Q : List Byte) : Except HostError (List Byte) :=
  match scheme with
  | .zeros => .ok (Q.rdropWhile (· == 0x00#8))
  | .pkcs7 => unpadByLength true bs Q
  | .ansix923 => unpadByLength false bs Q
  | .iso10126 => unpadByLength false bs Q

end Sys2Proof.Machine
end

