-- ==== Sys2Proof/Machine/HostMessage.lean ====
section
/-! DEFINITION. The host's message procedures (spec/47_host_padding.md R260, R261), over the machine. `turn` is the number of
polls each command's wait loop makes before the command completes, which the latency leaves open (log entry 16). -/

namespace Sys2Proof.Machine

/-- `run MNEMONIC` (spec/30_encoding.md R88), then the test of STATUS.ERR. -/
def runCommand (turn : Nat) (i : Instr) (s : State) : HostResult Unit :=
  hostThen (performLine turn (.run i) s) fun _ s' =>
    .next (if s'.err = .ok then .ok () else .error (.engine s'.err), s')

/-- The block command of a direction. -/
def blockCommand : Dir → Instr
  | .enc => .modeEnc
  | .dec => .modeDec

/-- The blocks of a message, in order: load DIN, run the block command, stop on error, append DOUTBUF[0 .. bs-1] (R260). -/
def runBlocks (turn : Nat) (d : Dir) (bs : Nat) : List (List Byte) → State → HostResult (List Byte)
  | [], s => .next (.ok [], s)
  | b :: rest, s =>
    hostThen (performLine turn (.ldblk b) s) fun _ s1 =>
      hostThen (runCommand turn (blockCommand d) s1) fun _ s2 =>
        hostThen (runBlocks turn d bs rest s2) fun out s3 => .next (.ok (bytesOf s2.doutbuf bs ++ out), s3)

/-- The whole blocks of a byte string. -/
def blocksOf (bs : Nat) (Q : List Byte) : List (List Byte) :=
  (List.range (Q.length / bs)).map fun j => (Q.drop (j * bs)).take bs

/-- MODE_INIT, the blocks in one direction, MODE_CLEAR; stop on error (R260, R261). -/
def runMessage (turn : Nat) (d : Dir) (bs : Nat) (Q : List Byte) (s : State) : HostResult (List Byte) :=
  hostThen (runCommand turn .modeInit s) fun _ s1 =>
    hostThen (runBlocks turn d bs (blocksOf bs Q) s1) fun out s2 =>
      hostThen (runCommand turn .modeClear s2) fun _ s3 => .next (.ok out, s3)

/-- `EncryptMessage(P, scheme)` for the algorithm, mode and IV configured in `s` (R260). -/
def encryptMessage (turn : Nat) (scheme : PadScheme) (draw : Nat → Byte) (P : List Byte) (s : State) :
    HostResult (List Byte) :=
  let bs := blockSize s.cfgAlg
  runMessage turn .enc bs (pad scheme bs draw P) s

/-- `DecryptMessage(C, scheme)` (R261): a ragged ciphertext fails BLOCK_LEN before any command. -/
def decryptMessage (turn : Nat) (scheme : PadScheme) (C : List Byte) (s : State) : HostResult (List Byte) :=
  let bs := blockSize s.cfgAlg
  if C.length % bs ≠ 0 then .next (.error .blockLen, s)
  else hostThen (runMessage turn .dec bs C s) fun Q s' => .next (unpad scheme bs Q, s')

end Sys2Proof.Machine
end

