-- ==== Sys2Proof/Safety.lean ====
section
/-! DEFINITION. What a good state of DES_core is, in the terms the statements use. -/

namespace Sys2Proof.Machine

/-- BUSY and the pending command agree (spec/10_state.md R38, R44). -/
abbrev State.PendingInv (s : State) : Prop := s.busy = s.pending.isSome

/-- The DEAL store and its flags agree (R35, R44): KVL, DNR, and the length of the round-key sequence. -/
abbrev State.DealStoreInv (s : State) : Prop :=
  (s.kvl = true ↔ s.dnr = 6#4 ∨ s.dnr = 8#4 ∨ s.dnr = 12#4) ∧ (s.kvl = false ↔ s.dnr = 0#4) ∧
    s.rkDeal.length = s.nrDeal ∧ (s.kvl = true → s.dnr.toNat = s.nrDeal)

/-- The session state agrees with STATUS.SESS and STATUS.SALG (R44). -/
abbrev State.SessionInv (s : State) : Prop :=
  (s.sess = false → s.salg = .des ∧ s.smode = .ecb ∧ s.cvbuf = 0#128 ∧ s.sDelta = 0#128) ∧
    (s.sess = true ∧ s.salg = .des → ∀ j, 8 ≤ j → j < 16 → byteAt s.cvbuf j = 0x00#8)

/-- The state invariants of R44. -/
abbrev State.Inv (s : State) : Prop := s.PendingInv ∧ s.DealStoreInv ∧ s.SessionInv

/-- Every state element whose reset value the spec gives holds it (R43): all but the key stores and the hidden schedule
the spec leaves unspecified, and all but the model's own fields. -/
abbrev State.AtReset (s : State) : Prop :=
  s.ie = false ∧ s.cfg = 0#20 ∧ s.statusWord = 0#32 ∧ s.busy = false ∧ s.pending = none ∧ s.keybuf = 0#256 ∧
    s.dinbuf = 0#128 ∧ s.doutbuf = 0#128 ∧ s.ivbuf = 0#128 ∧ s.deltabuf = 0#128 ∧ s.cvbuf = 0#128 ∧ s.sDelta = 0#128

/-- The core is next to move, with the inputs that are left after its turn: no input waits, or the next is its turn. -/
def State.coreNext (s : State) : Option (List Input) :=
  match s.inputs with
  | [] => some []
  | .core :: rest => some rest
  | .host _ :: _ => none
  | .pin _ :: _ => none

end Sys2Proof.Machine
end

