-- ==== Sys2Proof/Certificates/Slice0/Obligations.lean ====
section
/-! DEFINITION. The statements for the provers, in the order of OBLIGATIONS.json. None is proved here. -/

open Sys2Proof Sys2Proof.Machine

/-! ## Encoding -/

/-- A few command words, written out from the opcode map (R82), and a few illegal ones (R83, R84). -/
def Obligations.SampleCommandWordsDecode : Prop :=
  decode 0x00000000#32 = .ok .nop ∧ decode 0x00000001#32 = .ok .setkey ∧ decode 0x00000003#32 = .ok .decrypt ∧
    decode 0x00000010#32 = .ok .modeInit ∧ decode 0x00000012#32 = .ok .modeDec ∧ decode 0x00000020#32 = .ok .softreset ∧
    decode 0x00000104#32 = .error .rsvNotZero ∧ decode 0x80000001#32 = .error .rsvNotZero ∧
    decode 0x00000004#32 = .error .opcUnassigned ∧ decode 0x000000FF#32 = .error .opcUnassigned

/-- Decoding an encoded well-formed command gives it back, and no other word decodes to it. -/
def Obligations.DecodeAndEncodeAgree : Prop :=
  ∀ i : Instr, i.wf = true → decode (encode i) = .ok i ∧ ∀ c : Word, decode c = .ok i → c = encode i

/-- R82, the opcode map, with the mask and the matches as printed: all 32 bits are compared. -/
def Obligations.DecoderFollowsTheOpcodeMap : Prop :=
  ∀ (c : Word) (i : Instr), decode c = .ok i ↔
    (c &&& 0xFFFFFFFF#32, i) ∈
      [(0x00000000#32, Instr.nop), (0x00000001#32, .setkey), (0x00000002#32, .encrypt), (0x00000003#32, .decrypt),
       (0x00000010#32, .modeInit), (0x00000011#32, .modeEnc), (0x00000012#32, .modeDec), (0x00000013#32, .modeClear),
       (0x00000020#32, .softreset)]

/-- R81: the CFG word of operands in range is the sum of the shifted operands, with zero in bits [31:20], and gives each of
them back; the four examples. -/
def Obligations.CfgWordCarriesItsOperands : Prop :=
  (∀ o : CfgOperands, o.wf = true →
    (encodeCfg o).toNat = o.alg + 2 ^ 1 * o.mode + 2 ^ 4 * o.keylen + 2 ^ 10 * o.ivlen + 2 ^ 15 * o.dlen ∧
      (encodeCfg o).extractLsb' 20 12 = 0#12 ∧ decodeCfg (encodeCfg o) = o) ∧
    encodeCfg { alg := 0, mode := 1, keylen := 8, ivlen := 8, dlen := 8 } = 0x00042082#32 ∧
    encodeCfg { alg := 0, mode := 0, keylen := 8, ivlen := 0, dlen := 8 } = 0x00040080#32 ∧
    encodeCfg { alg := 1, mode := 5, keylen := 16, ivlen := 16, dlen := 16 } = 0x0008410B#32 ∧
    encodeCfg { alg := 1, mode := 0, keylen := 32, ivlen := 0, dlen := 16 } = 0x00080201#32

/-- R23: a CFG write on an idle core stores every field exactly as written, where the commands read them. -/
def Obligations.CfgWriteSetsTheOperandFields : Prop :=
  ∀ (s : State) (v : Word), s.busy = false →
    let t := s.hostWrite 0x01#6 v
    (t.cfgAlg = .deal ↔ v.getLsbD 0 = true) ∧ t.cfgMode = v.extractLsb' 1 3 ∧ t.cfgKeylen = (v.extractLsb' 4 6).toNat ∧
      t.cfgIvlen = (v.extractLsb' 10 5).toNat ∧ t.cfgDlen = (v.extractLsb' 15 5).toNat ∧
      t.hostRead 0x01#6 = v &&& 0x000FFFFF#32

/-! ## Steps, acceptance and completion -/

/-- A step runs the decoded command: with a command pending, the pin released and the core next, step is exec of the
command the pending word decodes to, on the state with the inputs left after the core's turn. That the turns stand in a
list of inputs is the model's choice (log entries 1 and 2). -/
def Obligations.StepRunsThePendingCommand : Prop :=
  ∀ (s : State) (c : Word) (i : Instr) (rest : List Input), s.coreNext = some rest → s.pending = some c → s.rst = false →
    decode c = .ok i → i.wf = true → step s = exec i { s with inputs := rest }

/-- What else a step does (R66): with nothing pending the core idles (the model's choice, log entry 14); a host
transaction is performed, and a read returns its word to the host and changes nothing of DES_core (R64). -/
def Obligations.StepPerformsTheNextMove : Prop :=
  (∀ (s : State) (rest : List Input), s.coreNext = some rest → s.pending = none → step s = .next { s with inputs := rest }) ∧
    (∀ (s : State) (idx : Idx) (v : Word) (rest : List Input), s.inputs = .host (.write idx v) :: rest → s.rst = false →
      step s = .next (State.hostWrite { s with inputs := rest } idx v)) ∧
    (∀ (s : State) (idx : Idx) (rest : List Input), s.inputs = .host (.read idx) :: rest → s.rst = false →
      step s = .next { s with inputs := rest, readData := s.hostRead idx })

/-- R83: a word with RSV ≠ 0 or an unassigned OPC completes with ILLEGAL_CMD and ECMD = c[7:0], and changes nothing else;
every other word executes the command whose OPC is c[7:0]. -/
def Obligations.EveryWordIsACommandOrIllegal : Prop :=
  ∀ (c : Word) (s : State),
    (c.extractLsb' 8 24 ≠ 0#24 ∨
        c.extractLsb' 0 8 ∉ [0x00#8, 0x01#8, 0x02#8, 0x03#8, 0x10#8, 0x11#8, 0x12#8, 0x13#8, 0x20#8] →
      runWord c s = .next { s with busy := false, done := true, err := .illegalCmd, ecmd := c.extractLsb' 0 8, pending := none }) ∧
    (∀ i : Instr, c.extractLsb' 8 24 = 0#24 → c.extractLsb' 0 8 = i.opc → runWord c s = exec i s)

/-- Every step answers a next state. That an error never stops the machine is R301; that there is no fault and no refusal
at all, and that a step with nothing to do, where the spec has none, answers the state it found, are the model's choices
(log entries 10 and 14). -/
def Obligations.EveryStepAnswersNext : Prop :=
  ∀ s : State, ∃ t, step s = .next t

/-- R302: acceptance of a command word, and a CMD write while BUSY = 1. -/
def Obligations.AcceptanceOfACommand : Prop :=
  ∀ (s : State) (c : Word),
    (s.busy = false → s.hostWrite 0x02#6 c = { s with pending := some c, busy := true, done := false, err := .ok }) ∧
      (s.busy = true → s.hostWrite 0x02#6 c = { s with haz := true })

/-- A pending command completes after finitely many host transactions, with its opcode recorded, whatever the host does
short of the reset pin (R66, R303). The bound rests on the model's form of weak fairness (log entry 2). -/
def Obligations.PendingCommandCompletes : Prop :=
  ∀ (s : State) (c : Word), s.PendingInv → s.pending = some c → s.rst = false → (∀ l, Input.pin l ∉ s.inputs) →
    ∃ k t, k ≤ s.inputs.length + 1 ∧ Host.Core.run Sys2Proof.core k s = .next t ∧ t.pending = none ∧ t.busy = false ∧
      t.done = true ∧ t.ecmd = c.extractLsb' 0 8

/-- R305: a command word that completes with an error changed only BUSY, DONE, ERR and ECMD (and is no longer pending). -/
def Obligations.FailingCommandChangesOnlyStatus : Prop :=
  ∀ (c : Word) (s t : State), runWord c s = .next t → t.err ≠ .ok →
    t = { s with busy := false, done := true, err := t.err, ecmd := c.extractLsb' 0 8, pending := none }

/-- R306: the one error a command word reports: ILLEGAL_CMD before anything else, then the first in the command's check
order. -/
def Obligations.ErrorPriority : Prop :=
  (∀ (c : Word) (s t : State), runWord c s = .next t → (t.err = .illegalCmd ↔ wordWf c = false)) ∧
  ∀ (i : Instr) (s t : State), exec i s = .next t →
    match i with
    | .nop => t.err = .ok
    | .modeClear => t.err = .ok
    | .softreset => t.err = .ok
    | .setkey => t.err =
        if (s.cfgAlg = .des ∧ s.cfgKeylen = 8) ∨ (s.cfgAlg = .deal ∧ s.cfgKeylen ∈ [16, 24, 32]) then .ok else .keyLen
    | .encrypt => t.err =
        if s.cfgDlen ≠ blockSize s.cfgAlg then .blockLen else if s.keyValid s.cfgAlg = false then .noKey else .ok
    | .decrypt => t.err =
        if s.cfgDlen ≠ blockSize s.cfgAlg then .blockLen else if s.keyValid s.cfgAlg = false then .noKey else .ok
    | .modeInit => t.err =
        if s.cfgMode = 7#3 then .badMode
        else if s.cfgMode ≠ 0#3 ∧ s.cfgIvlen ≠ blockSize s.cfgAlg then .ivLen else .ok
    | .modeEnc => t.err =
        if s.sess = false then .noSession else if s.cfgDlen ≠ blockSize s.salg then .blockLen
        else if s.keyValid s.salg = false then .noKey else .ok
    | .modeDec => t.err =
        if s.sess = false then .noSession else if s.cfgDlen ≠ blockSize s.salg then .blockLen
        else if s.keyValid s.salg = false then .noKey else .ok

/-- While a command is pending no host transaction changes what it reads or what it has yet to write (R38, R64, R340). -/
def Obligations.OperandsHoldWhilePending : Prop :=
  ∀ (s t : State) (x : Transaction) (rest : List Input), s.busy = true → s.inputs = .host x :: rest → step s = .next t →
    t.busy = true ∧ t.pending = s.pending ∧ t.cfg = s.cfg ∧ t.keybuf = s.keybuf ∧ t.dinbuf = s.dinbuf ∧ t.ivbuf = s.ivbuf ∧
      t.deltabuf = s.deltabuf ∧ t.doutbuf = s.doutbuf ∧ t.cvbuf = s.cvbuf ∧ t.sDelta = s.sDelta ∧ t.sess = s.sess ∧
      t.salg = s.salg ∧ t.smode = s.smode ∧ t.kvd = s.kvd ∧ t.kvl = s.kvl ∧ t.dnr = s.dnr ∧ t.rkDes = s.rkDes ∧
      t.rkDeal = s.rkDeal ∧ t.nrDeal = s.nrDeal ∧ t.err = s.err ∧ t.ecmd = s.ecmd

/-- The number of polls before a completion does not change what the command leaves, but for the word the last poll
returned (R350): for a list of host reads before the core's turn, and for the loop of `wait` (R88), which ends with a STATUS
read that shows BUSY = 0, at its first poll where no command is pending. How many polls come before the core's turn is an
argument of the model's loop (log entries 2 and 26). -/
def Obligations.PollsDoNotChangeTheOutcome : Prop :=
  (∀ (s t : State) (c : Word) (polls : List Idx), s.inputs = [] → s.pending = some c → s.rst = false → step s = .next t →
    ∃ r, Host.Core.run Sys2Proof.core (polls.length + 1)
        { s with inputs := polls.map (fun x => Input.host (.read x)) ++ [.core] } = .next { t with readData := r }) ∧
  (∀ (s t : State) (c : Word) (turn : Nat), s.busy = true → s.pending = some c → s.rst = false → coreTurn s = .next t →
    waitLoop turn s = .next (.ok (), { t with readData := t.statusWord }) ∧ t.statusWord.getLsbD 0 = false) ∧
  (∀ (s : State) (turn : Nat), s.busy = false → s.pending = none → s.rst = false →
    waitLoop turn s = .next (.ok (), { s with readData := s.statusWord }))

/-! ## The host port and the registers -/

/-- R63: exactly the effect of a HostWrite, by index. -/
def Obligations.HostWriteByIndex : Prop :=
  ∀ (s : State) (idx : Idx) (v : Word),
    let n := idx.toNat
    let t := s.hostWrite idx v
    (n = 0x00 → t = { s with ie := v.getLsbD 0 }) ∧
    (n = 0x03 → t = { s with done := s.done && !v.getLsbD 1, haz := s.haz && !v.getLsbD 2 }) ∧
    ((0x10 ≤ n ∧ n < 0x14) ∨ 0x1C ≤ n → t = s) ∧
    (s.busy = true → (n = 0x01 ∨ n = 0x02 ∨ (0x04 ≤ n ∧ n < 0x10) ∨ (0x14 ≤ n ∧ n < 0x1C)) → t = { s with haz := true }) ∧
    (s.busy = false →
      (n = 0x01 → t = { s with cfg := v.extractLsb' 0 20 }) ∧
      (n = 0x02 → t = { s with pending := some v, busy := true, done := false, err := .ok }) ∧
      (0x04 ≤ n ∧ n < 0x0C → t = { s with keybuf := t.keybuf } ∧
        ∀ w < 8, wordAt t.keybuf w = if w = n - 0x04 then v else wordAt s.keybuf w) ∧
      (0x0C ≤ n ∧ n < 0x10 → t = { s with dinbuf := t.dinbuf } ∧
        ∀ w < 4, wordAt t.dinbuf w = if w = n - 0x0C then v else wordAt s.dinbuf w) ∧
      (0x14 ≤ n ∧ n < 0x18 → t = { s with ivbuf := t.ivbuf } ∧
        ∀ w < 4, wordAt t.ivbuf w = if w = n - 0x14 then v else wordAt s.ivbuf w) ∧
      (0x18 ≤ n ∧ n < 0x1C → t = { s with deltabuf := t.deltabuf } ∧
        ∀ w < 4, wordAt t.deltabuf w = if w = n - 0x18 then v else wordAt s.deltabuf w))

/-- R21: the reserved words read zero, and a write to one has no effect, whether or not a command is pending. Also, in every
state: CTRL reads IE in bit [0] and zero above, CFG reads zero in bits [31:20], and CMD reads zero (R22, R23, R25, R64). -/
def Obligations.ReservedWordsAreInert : Prop :=
  (∀ (s : State) (idx : Idx) (v : Word), 0x20 ≤ idx.toNat → s.hostRead idx = 0x00000000#32 ∧ s.hostWrite idx v = s) ∧
    (∀ s : State, (s.hostRead 0x00#6).getLsbD 0 = s.ie ∧ (s.hostRead 0x00#6).extractLsb' 1 31 = 0#31) ∧
    (∀ s : State, (s.hostRead 0x01#6).extractLsb' 0 20 = s.cfg ∧ (s.hostRead 0x01#6).extractLsb' 20 12 = 0#12) ∧
    (∀ s : State, s.hostRead 0x02#6 = 0x00000000#32)

/-- R27: a STATUS write clears DONE and HAZ by writing 1, whatever BUSY is, and a STATUS read has no side effect. -/
def Obligations.StatusWriteOneToClear : Prop :=
  ∀ (s : State) (v : Word),
    s.hostWrite 0x03#6 v =
        { s with
          done := if v.extractLsb' 1 1 = 1#1 then false else s.done
          haz := if v.extractLsb' 2 1 = 1#1 then false else s.haz } ∧
      ∃ r, s.transact (.read 0x03#6) = { s with readData := r }

/-- The STATUS word a host reads, field by field (R26), with the codes of ERR (R300) and the values of SMODE (R23, R24)
written out. -/
def Obligations.StatusWordLayout : Prop :=
  ∀ s : State,
    let w := s.hostRead 0x03#6
    w.getLsbD 0 = s.busy ∧ w.getLsbD 1 = s.done ∧ w.getLsbD 2 = s.haz ∧ w.getLsbD 3 = false ∧
      w.extractLsb' 4 4 = (match s.err with
        | .ok => 0#4
        | .illegalCmd => 1#4
        | .keyLen => 2#4
        | .noKey => 3#4
        | .blockLen => 4#4
        | .ivLen => 5#4
        | .noSession => 6#4
        | .badMode => 7#4) ∧
      w.getLsbD 8 = s.kvd ∧ w.getLsbD 9 = s.kvl ∧ w.getLsbD 10 = s.sess ∧
      (w.getLsbD 11 = true ↔ s.salg = .deal) ∧
      w.extractLsb' 12 3 = (match s.smode with
        | .ecb => 0#3
        | .cbc => 1#3
        | .pcbc => 2#3
        | .cfb => 3#3
        | .ofb => 4#3
        | .ctr => 5#3
        | .randomDelta => 6#3) ∧
      w.getLsbD 15 = false ∧
      w.extractLsb' 16 8 = s.ecmd ∧ w.extractLsb' 24 4 = s.dnr ∧ w.extractLsb' 28 4 = 0#4

/-- R61: byte j of a buffer is bits [31-8(j mod 4) : 24-8(j mod 4)] of word j div 4 of its register, and cipher bit 8j+k
is bit 31-8(j mod 4)-k of that word, for all six buffers. -/
def Obligations.BufferBytesAreBigEndianInWords : Prop :=
  ∀ (s : State) (j k : Nat), k < 8 →
    (j < 32 →
      byteAt s.keybuf j = (s.hostRead (BitVec.ofNat 6 (0x04 + j / 4))).extractLsb' (24 - 8 * (j % 4)) 8 ∧
        s.keybuf.getMsbD (8 * j + k) = (s.hostRead (BitVec.ofNat 6 (0x04 + j / 4))).getLsbD (31 - 8 * (j % 4) - k)) ∧
    (j < 16 → ∀ p ∈ [(0x0C, s.dinbuf), (0x10, s.doutbuf), (0x14, s.ivbuf), (0x18, s.deltabuf), (0x1C, s.cvbuf)],
      byteAt p.2 j = (s.hostRead (BitVec.ofNat 6 (p.1 + j / 4))).extractLsb' (24 - 8 * (j % 4)) 8 ∧
        p.2.getMsbD (8 * j + k) = (s.hostRead (BitVec.ofNat 6 (p.1 + j / 4))).getLsbD (31 - 8 * (j % 4) - k))

/-- HAZ is sticky (R26, R340): a step that clears it performs a STATUS write with bit 2, a change of the reset pin, or
SOFTRESET. -/
def Obligations.HazardFlagIsSticky : Prop :=
  ∀ s t : State, step s = .next t → s.haz = true → t.haz = false →
    (∃ v rest, s.inputs = .host (.write 0x03#6 v) :: rest ∧ v.getLsbD 2 = true ∧ s.rst = false) ∨
      (∃ l rest, s.inputs = .pin l :: rest) ∨
      (s.coreNext.isSome = true ∧ s.pending = some 0x00000020#32 ∧ s.rst = false)

/-- The interrupt level (R41, R307, R308): raised by every completion of a command word, illegal ones included, while
CTRL.IE = 1, dropped by the acknowledgement and by the next acceptance, blind to HAZ. -/
def Obligations.InterruptFollowsCompletion : Prop :=
  (∀ s : State, s.irq = true ↔ s.ie = true ∧ s.done = true) ∧
    (∀ (c : Word) (s t : State), runWord c s = .next t →
      t.done = true ∧ t.irq = t.ie ∧ (c ≠ 0x00000020#32 → t.ie = s.ie) ∧ (c = 0x00000020#32 → t.irq = false)) ∧
    (∀ (s : State) (c : Word), s.busy = false → (s.hostWrite 0x02#6 c).irq = false) ∧
    (∀ s : State, (s.hostWrite 0x03#6 0x00000002#32).irq = false) ∧
    (∀ (s : State) (b : Bool), State.irq { s with haz := b } = s.irq)

/-- The hidden schedule of DEAL's own DES cannot be observed (R36): no host read and no interrupt sees it, and a step from
two states that differ in nothing else gives two states that differ in nothing else. -/
def Obligations.InnerScheduleIsUnobservable : Prop :=
  ∀ (s : State) (v : DesSchedule),
    (∀ idx, State.hostRead { s with dealInnerRk := v } idx = s.hostRead idx) ∧
      State.irq { s with dealInnerRk := v } = s.irq ∧
      ∀ t, step s = .next t → ∃ w, step { s with dealInnerRk := v } = .next { t with dealInnerRk := w }

/-! ## Reset -/

/-- R333: what reset leaves, and that the first host transaction may be any. -/
def Obligations.ResetLeavesAnIdleCore : Prop :=
  State.reset.AtReset ∧ State.reset.busy = false ∧ State.reset.kvd = false ∧ State.reset.kvl = false ∧
    State.reset.sess = false ∧ State.reset.ie = false ∧ State.reset.irq = false ∧
    (∀ idx, State.reset.hostRead idx = 0x00000000#32) ∧
    (∀ idx v, step { State.reset with inputs := [.host (.write idx v)] } = .next (State.reset.hostWrite idx v)) ∧
    (∀ idx, step { State.reset with inputs := [.host (.read idx)] } = .next State.reset)

/-- R330, R331: asserting the pin puts every state element at its reset value and abandons a pending command; while it is
asserted host transactions have no effect and reads return zero; releasing it leaves the reset values. -/
def Obligations.ResetPinHoldsReset : Prop :=
  (∀ (s : State) (rest : List Input), s.inputs = .pin true :: rest →
    ∃ t, step s = .next t ∧ t.AtReset ∧ t.rst = true ∧ t.irq = false ∧ t.inputs = rest) ∧
  (∀ (s : State) (x : Input) (rest : List Input), s.AtReset → s.rst = true → s.inputs = x :: rest → x ≠ .pin false →
    ∃ t, step s = .next t ∧ t.AtReset ∧ t.rst = true ∧ t.irq = false ∧ t.inputs = rest ∧
      (∀ idx, x = .host (.read idx) → t.readData = 0x00000000#32)) ∧
  (∀ (s : State) (rest : List Input), s.rst = true → s.inputs = .pin false :: rest →
    ∃ t, step s = .next t ∧ t.AtReset ∧ t.rst = false ∧ t.inputs = rest)

/-! ## The commands -/

/-- R230: NOP completes and does nothing else; from reset it leaves STATUS = 0x00000002. -/
def Obligations.NopOnlyCompletes : Prop :=
  (∀ s : State, exec .nop s = .next { s with busy := false, done := true, err := .ok, ecmd := 0x00#8, pending := none }) ∧
    ∃ t, step (State.reset.hostWrite 0x02#6 0x00000000#32) = .next t ∧ t.statusWord = 0x00000002#32

/-- R231: SETKEY. The DES key is the first 8 bytes of KEYBUF; round key i of a DEAL key of L bytes is its 8-byte group
i mod (L/8) (R182). -/
def Obligations.SetkeyStoresTheSchedule : Prop :=
  (∀ s : State, s.cfgAlg = .des → s.cfgKeylen = 8 → exec .setkey s = .next
    { s with
      rkDes := desSchedule (s.keybuf.extractLsb' 192 64), kvd := true
      busy := false, done := true, err := .ok, ecmd := 0x01#8, pending := none }) ∧
  (∀ (s : State) (nr : Nat), s.cfgAlg = .deal → (s.cfgKeylen, nr) ∈ [(16, 6), (24, 8), (32, 12)] → exec .setkey s = .next
    { s with
      rkDeal := (List.range nr).map fun i => s.keybuf.extractLsb' (256 - 64 * (i % (s.cfgKeylen / 8) + 1)) 64
      nrDeal := nr, dnr := BitVec.ofNat 4 nr, kvl := true
      busy := false, done := true, err := .ok, ecmd := 0x01#8, pending := none }) ∧
  (∀ s : State, (s.cfgAlg = .des ∧ s.cfgKeylen ≠ 8) ∨ (s.cfgAlg = .deal ∧ s.cfgKeylen ∉ [16, 24, 32]) →
    exec .setkey s = .next { s with busy := false, done := true, err := .keyLen, ecmd := 0x01#8, pending := none }) ∧
  (∀ s : State, s.cfgAlg = .des → s.cfgKeylen = 8 → wordAt s.keybuf 0 = 0x13345779#32 → wordAt s.keybuf 1 = 0x9BBCDFF1#32 →
    ∃ t, exec .setkey s = .next t ∧ t.kvd = true ∧ t.rkDes[0] = 0x1B02EFFC7072#48)

/-- R232: ENCRYPT, its errors in order, and the example. -/
def Obligations.EncryptWritesTheBlock : Prop :=
  (∀ s : State, s.cfgAlg = .des → s.cfgDlen = 8 → s.kvd = true → exec .encrypt s = .next
    { s with
      doutbuf := desEncrypt s.rkDes (s.dinbuf.extractLsb' 64 64) ++ 0#64
      busy := false, done := true, err := .ok, ecmd := 0x02#8, pending := none }) ∧
  (∀ s : State, s.cfgAlg = .deal → s.cfgDlen = 16 → s.kvl = true → exec .encrypt s = .next
    { s with
      doutbuf := dealEncrypt s.rkDeal s.dinbuf, dealInnerRk := innerAfterEnc s.rkDeal s.dealInnerRk
      busy := false, done := true, err := .ok, ecmd := 0x02#8, pending := none }) ∧
  (∀ s : State, s.cfgDlen ≠ blockSize s.cfgAlg →
    exec .encrypt s = .next { s with busy := false, done := true, err := .blockLen, ecmd := 0x02#8, pending := none }) ∧
  (∀ s : State, s.cfgDlen = blockSize s.cfgAlg → s.keyValid s.cfgAlg = false →
    exec .encrypt s = .next { s with busy := false, done := true, err := .noKey, ecmd := 0x02#8, pending := none }) ∧
  (∀ s : State, s.cfg = 0x40080#20 → s.kvd = true → s.rkDes = desSchedule 0x133457799BBCDFF1#64 →
    wordAt s.dinbuf 0 = 0x01234567#32 → wordAt s.dinbuf 1 = 0x89ABCDEF#32 →
    ∃ t, exec .encrypt s = .next t ∧ t.hostRead 0x10#6 = 0x8E5907DC#32 ∧ t.hostRead 0x11#6 = 0x0C465F03#32 ∧
      t.hostRead 0x12#6 = 0#32 ∧ t.hostRead 0x13#6 = 0#32)

/-- R233: DECRYPT, its errors in order, and the example. -/
def Obligations.DecryptWritesTheBlock : Prop :=
  (∀ s : State, s.cfgAlg = .des → s.cfgDlen = 8 → s.kvd = true → exec .decrypt s = .next
    { s with
      doutbuf := desDecrypt s.rkDes (s.dinbuf.extractLsb' 64 64) ++ 0#64
      busy := false, done := true, err := .ok, ecmd := 0x03#8, pending := none }) ∧
  (∀ s : State, s.cfgAlg = .deal → s.cfgDlen = 16 → s.kvl = true → exec .decrypt s = .next
    { s with
      doutbuf := dealDecrypt s.rkDeal s.dinbuf, dealInnerRk := innerAfterDec s.rkDeal s.dealInnerRk
      busy := false, done := true, err := .ok, ecmd := 0x03#8, pending := none }) ∧
  (∀ s : State, s.cfgDlen ≠ blockSize s.cfgAlg →
    exec .decrypt s = .next { s with busy := false, done := true, err := .blockLen, ecmd := 0x03#8, pending := none }) ∧
  (∀ s : State, s.cfgDlen = blockSize s.cfgAlg → s.keyValid s.cfgAlg = false →
    exec .decrypt s = .next { s with busy := false, done := true, err := .noKey, ecmd := 0x03#8, pending := none }) ∧
  (∀ s : State, s.cfg = 0x40080#20 → s.kvd = true → s.rkDes = desSchedule 0x133457799BBCDFF1#64 →
    wordAt s.dinbuf 0 = 0x8E5907DC#32 → wordAt s.dinbuf 1 = 0x0C465F03#32 →
    ∃ t, exec .decrypt s = .next t ∧ t.hostRead 0x10#6 = 0x01234567#32 ∧ t.hostRead 0x11#6 = 0x89ABCDEF#32)

/-- R234 and R201: MODE_INIT opens a session, latching algorithm, mode, IV and delta; its errors in order; the example. -/
def Obligations.ModeInitOpensASession : Prop :=
  (∀ (s : State) (m : Mode), s.cfgMode = modeBits m → (m ≠ .ecb → s.cfgIvlen = blockSize s.cfgAlg) → exec .modeInit s = .next
    { s with
      sess := true, salg := s.cfgAlg, smode := m
      cvbuf := if m = .ecb then 0#128 else if s.cfgAlg = .des then s.ivbuf.extractLsb' 64 64 ++ 0#64 else s.ivbuf
      sDelta := if m = .randomDelta then (if s.cfgAlg = .des then s.deltabuf.extractLsb' 64 64 ++ 0#64 else s.deltabuf)
        else 0#128
      busy := false, done := true, err := .ok, ecmd := 0x10#8, pending := none }) ∧
  (∀ s : State, s.cfgMode = 7#3 →
    exec .modeInit s = .next { s with busy := false, done := true, err := .badMode, ecmd := 0x10#8, pending := none }) ∧
  (∀ (s : State) (m : Mode), s.cfgMode = modeBits m → m ≠ .ecb → s.cfgIvlen ≠ blockSize s.cfgAlg →
    exec .modeInit s = .next { s with busy := false, done := true, err := .ivLen, ecmd := 0x10#8, pending := none }) ∧
  (∀ s : State, s.cfg = 0x42082#20 → wordAt s.ivbuf 0 = 0x00112233#32 → wordAt s.ivbuf 1 = 0x44556677#32 →
    ∃ t, exec .modeInit s = .next t ∧ t.sess = true ∧ modeBits t.smode = 1#3 ∧ t.hostRead 0x1C#6 = 0x00112233#32 ∧
      t.hostRead 0x1D#6 = 0x44556677#32)

/-- R235: MODE_ENC runs the encrypt row of the session's mode under the session's algorithm; its errors in order; the
example. -/
def Obligations.ModeEncRunsTheEncryptRow : Prop :=
  (∀ s : State, s.sess = true → s.salg = .des → s.cfgDlen = 8 → s.kvd = true →
    let c := chainEnc s.smode (desEncrypt s.rkDes) (s.sDelta.extractLsb' 64 64) (s.dinbuf.extractLsb' 64 64)
      (s.cvbuf.extractLsb' 64 64)
    exec .modeEnc s = .next
      { s with
        doutbuf := c.Y ++ 0#64, cvbuf := c.CV ++ 0#64
        busy := false, done := true, err := .ok, ecmd := 0x11#8, pending := none }) ∧
  (∀ s : State, s.sess = true → s.salg = .deal → s.cfgDlen = 16 → s.kvl = true →
    let c := chainEnc s.smode (dealEncrypt s.rkDeal) s.sDelta s.dinbuf s.cvbuf
    exec .modeEnc s = .next
      { s with
        doutbuf := c.Y, cvbuf := c.CV, dealInnerRk := innerAfterEnc s.rkDeal s.dealInnerRk
        busy := false, done := true, err := .ok, ecmd := 0x11#8, pending := none }) ∧
  (∀ s : State, s.sess = false →
    exec .modeEnc s = .next { s with busy := false, done := true, err := .noSession, ecmd := 0x11#8, pending := none }) ∧
  (∀ s : State, s.sess = true → s.cfgDlen ≠ blockSize s.salg →
    exec .modeEnc s = .next { s with busy := false, done := true, err := .blockLen, ecmd := 0x11#8, pending := none }) ∧
  (∀ s : State, s.sess = true → s.cfgDlen = blockSize s.salg → s.keyValid s.salg = false →
    exec .modeEnc s = .next { s with busy := false, done := true, err := .noKey, ecmd := 0x11#8, pending := none }) ∧
  (∀ s : State, s.sess = true → s.salg = .des → s.smode = .cbc → s.cfg = 0x42082#20 → s.kvd = true →
    s.rkDes = desSchedule 0x133457799BBCDFF1#64 → s.cvbuf.extractLsb' 64 64 = 0x0011223344556677#64 →
    s.dinbuf.extractLsb' 64 64 = 0x0123456789ABCDEF#64 →
    ∃ t, exec .modeEnc s = .next t ∧ t.doutbuf = 0x0CE6AF875BD44176#64 ++ 0#64 ∧ t.cvbuf = t.doutbuf)

/-- R236: MODE_DEC runs the decrypt row; the inverse cipher is run only under ECB, CBC and PCBC (R213); its errors in
order; the modes in which it computes what MODE_ENC computes; the example. -/
def Obligations.ModeDecRunsTheDecryptRow : Prop :=
  (∀ s : State, s.sess = true → s.salg = .des → s.cfgDlen = 8 → s.kvd = true →
    let c := chainDec s.smode (desEncrypt s.rkDes) (desDecrypt s.rkDes) (s.sDelta.extractLsb' 64 64)
      (s.dinbuf.extractLsb' 64 64) (s.cvbuf.extractLsb' 64 64)
    exec .modeDec s = .next
      { s with
        doutbuf := c.Y ++ 0#64, cvbuf := c.CV ++ 0#64
        busy := false, done := true, err := .ok, ecmd := 0x12#8, pending := none }) ∧
  (∀ s : State, s.sess = true → s.salg = .deal → s.cfgDlen = 16 → s.kvl = true →
    let c := chainDec s.smode (dealEncrypt s.rkDeal) (dealDecrypt s.rkDeal) s.sDelta s.dinbuf s.cvbuf
    exec .modeDec s = .next
      { s with
        doutbuf := c.Y, cvbuf := c.CV
        dealInnerRk := if s.smode ∈ [.ecb, .cbc, .pcbc] then innerAfterDec s.rkDeal s.dealInnerRk
          else innerAfterEnc s.rkDeal s.dealInnerRk
        busy := false, done := true, err := .ok, ecmd := 0x12#8, pending := none }) ∧
  (∀ s : State, s.sess = false →
    exec .modeDec s = .next { s with busy := false, done := true, err := .noSession, ecmd := 0x12#8, pending := none }) ∧
  (∀ s : State, s.sess = true → s.cfgDlen ≠ blockSize s.salg →
    exec .modeDec s = .next { s with busy := false, done := true, err := .blockLen, ecmd := 0x12#8, pending := none }) ∧
  (∀ s : State, s.sess = true → s.cfgDlen = blockSize s.salg → s.keyValid s.salg = false →
    exec .modeDec s = .next { s with busy := false, done := true, err := .noKey, ecmd := 0x12#8, pending := none }) ∧
  (∀ s t u : State, exec .modeEnc s = .next t → exec .modeDec s = .next u →
    (s.smode ∈ [.ofb, .ctr, .randomDelta] → u = { t with ecmd := 0x12#8 }) ∧
      (s.smode = .cfb → u = { t with ecmd := 0x12#8, cvbuf := u.cvbuf })) ∧
  (∀ s : State, s.sess = true → s.salg = .des → s.smode = .cbc → s.cfg = 0x42082#20 → s.kvd = true →
    s.rkDes = desSchedule 0x133457799BBCDFF1#64 → s.cvbuf.extractLsb' 64 64 = 0x0011223344556677#64 →
    s.dinbuf.extractLsb' 64 64 = 0x0CE6AF875BD44176#64 →
    ∃ t, exec .modeDec s = .next t ∧ t.doutbuf = 0x0123456789ABCDEF#64 ++ 0#64 ∧ t.cvbuf = 0x0CE6AF875BD44176#64 ++ 0#64)

/-- The equations of the seven modes (R205 to R211), with the counters read as big-endian integers (R11). -/
def Obligations.ModeEquations : Prop :=
  ∀ (n : Nat) (E Einv : BitVec n → BitVec n) (D X CV : BitVec n),
    chainEnc .ecb E D X CV = ⟨E X, CV⟩ ∧ chainDec .ecb E Einv D X CV = ⟨Einv X, CV⟩ ∧
    chainEnc .cbc E D X CV = ⟨E (X ^^^ CV), E (X ^^^ CV)⟩ ∧ chainDec .cbc E Einv D X CV = ⟨Einv X ^^^ CV, X⟩ ∧
    chainEnc .pcbc E D X CV = ⟨E (X ^^^ CV), X ^^^ E (X ^^^ CV)⟩ ∧
    chainDec .pcbc E Einv D X CV = ⟨Einv X ^^^ CV, (Einv X ^^^ CV) ^^^ X⟩ ∧
    chainEnc .cfb E D X CV = ⟨E CV ^^^ X, E CV ^^^ X⟩ ∧ chainDec .cfb E Einv D X CV = ⟨E CV ^^^ X, X⟩ ∧
    chainEnc .ofb E D X CV = ⟨X ^^^ E CV, E CV⟩ ∧ chainDec .ofb E Einv D X CV = ⟨X ^^^ E CV, E CV⟩ ∧
    (∀ d, (chain d .ctr E Einv D X CV).Y = X ^^^ E CV ∧
      (chain d .ctr E Einv D X CV).CV.toNat = (CV.toNat + 1) % 2 ^ n) ∧
    (∀ d, (chain d .randomDelta E Einv D X CV).Y = X ^^^ E CV ∧
      (chain d .randomDelta E Einv D X CV).CV.toNat = (CV.toNat + D.toNat) % 2 ^ n)

/-- R237 and R203: MODE_CLEAR closes the session and never fails; on an IDLE controller in a state that meets the session
invariant it changes nothing but the completion fields. -/
def Obligations.ModeClearClosesTheSession : Prop :=
  (∀ s : State, exec .modeClear s = .next
    { s with
      sess := false, salg := .des, smode := .ecb, cvbuf := 0#128, sDelta := 0#128
      busy := false, done := true, err := .ok, ecmd := 0x13#8, pending := none }) ∧
  (∀ s : State, s.SessionInv → s.sess = false → exec .modeClear s = .next
    { s with busy := false, done := true, err := .ok, ecmd := 0x13#8, pending := none })

/-- R238 and R332: after SOFTRESET every state element the spec gives a reset value holds it, except DONE = 1 and
ECMD = 0x20; so STATUS = 0x00200002 and irq = 0. That the pin's level, the waiting inputs and the word last read stay is the model's
choice (log entries 1, 6 and 7), and what the unspecified stores hold is free (log entry 5). -/
def Obligations.SoftresetResetsEverything : Prop :=
  ∀ s : State, ∃ t, exec .softreset s = .next t ∧ State.AtReset { t with done := false, ecmd := 0x00#8 } ∧
    t.statusWord = 0x00200002#32 ∧ t.irq = false ∧ t.rst = s.rst ∧ t.inputs = s.inputs ∧ t.readData = s.readData

/-! ## Frames -/

/-- The frame of ENCRYPT and DECRYPT: only DOUTBUF, the completion fields and, under DEAL, the hidden schedule may change;
every other register word reads as before. -/
def Obligations.CipherCommandsFrame : Prop :=
  ∀ (i : Instr) (s t : State), i = .encrypt ∨ i = .decrypt → exec i s = .next t →
    t = { s with
          doutbuf := t.doutbuf, dealInnerRk := t.dealInnerRk
          busy := false, done := true, err := t.err, ecmd := i.opc, pending := none } ∧
      (s.cfgAlg = .des → t.dealInnerRk = s.dealInnerRk) ∧
      (∀ idx : Idx, idx.toNat ≠ 0x03 → ¬ (0x10 ≤ idx.toNat ∧ idx.toNat < 0x14) → t.hostRead idx = s.hostRead idx)

/-- The frame of MODE_ENC and MODE_DEC: only DOUTBUF, CVBUF, the completion fields and, under DEAL, the hidden schedule
may change; under DES bytes 8 to 15 of both buffers are zero after success. -/
def Obligations.SessionBlockCommandsFrame : Prop :=
  ∀ (i : Instr) (s t : State), i = .modeEnc ∨ i = .modeDec → exec i s = .next t →
    t = { s with
          doutbuf := t.doutbuf, cvbuf := t.cvbuf, dealInnerRk := t.dealInnerRk
          busy := false, done := true, err := t.err, ecmd := i.opc, pending := none } ∧
      (s.salg = .des → t.dealInnerRk = s.dealInnerRk) ∧
      (s.salg = .des → t.err = .ok → t.doutbuf.extractLsb' 0 64 = 0#64 ∧ t.cvbuf.extractLsb' 0 64 = 0#64) ∧
      (∀ idx : Idx, idx.toNat ≠ 0x03 → ¬ (0x10 ≤ idx.toNat ∧ idx.toNat < 0x14) → ¬ (0x1C ≤ idx.toNat ∧ idx.toNat < 0x20) →
        t.hostRead idx = s.hostRead idx)

/-- The frame of MODE_INIT and MODE_CLEAR: only the session state and the completion fields may change. -/
def Obligations.SessionControlFrame : Prop :=
  ∀ (i : Instr) (s t : State), i = .modeInit ∨ i = .modeClear → exec i s = .next t →
    t = { s with
          sess := t.sess, salg := t.salg, smode := t.smode, cvbuf := t.cvbuf, sDelta := t.sDelta
          busy := false, done := true, err := t.err, ecmd := i.opc, pending := none } ∧
      (∀ idx : Idx, idx.toNat ≠ 0x03 → ¬ (0x1C ≤ idx.toNat ∧ idx.toNat < 0x20) → t.hostRead idx = s.hostRead idx)

/-- The frame of SETKEY: under DES only the DES store and KVD, under DEAL only the DEAL store, its count, DNR and KVL, and
the completion fields; the session is not touched. -/
def Obligations.SetkeyFrame : Prop :=
  ∀ s t : State, exec .setkey s = .next t →
    (s.cfgAlg = .des → t = { s with
      rkDes := t.rkDes, kvd := t.kvd, busy := false, done := true, err := t.err, ecmd := 0x01#8, pending := none }) ∧
    (s.cfgAlg = .deal → t = { s with
      rkDeal := t.rkDeal, nrDeal := t.nrDeal, dnr := t.dnr, kvl := t.kvl
      busy := false, done := true, err := t.err, ecmd := 0x01#8, pending := none }) ∧
    (∀ idx : Idx, idx.toNat ≠ 0x03 → t.hostRead idx = s.hostRead idx)

/-! ## Whole-machine rules and invariants -/

/-- The key stores change only by a SETKEY of their algorithm with a legal length, by SOFTRESET, or by the reset pin
(R34, R35). -/
def Obligations.KeyStoresChangeOnlyBySetkeyOrReset : Prop :=
  ∀ s t : State, step s = .next t →
    (t.rkDes ≠ s.rkDes ∨ t.kvd ≠ s.kvd →
      (∃ l rest, s.inputs = .pin l :: rest) ∨
        (s.coreNext.isSome = true ∧ s.rst = false ∧ (s.pending = some 0x00000020#32 ∨
          (s.pending = some 0x00000001#32 ∧ s.cfgAlg = .des ∧ s.cfgKeylen = 8)))) ∧
    (t.rkDeal ≠ s.rkDeal ∨ t.nrDeal ≠ s.nrDeal ∨ t.kvl ≠ s.kvl ∨ t.dnr ≠ s.dnr →
      (∃ l rest, s.inputs = .pin l :: rest) ∨
        (s.coreNext.isSome = true ∧ s.rst = false ∧ (s.pending = some 0x00000020#32 ∨
          (s.pending = some 0x00000001#32 ∧ s.cfgAlg = .deal ∧ s.cfgKeylen ∈ [16, 24, 32]))))

/-- DOUTBUF changes only by a successful ENCRYPT, DECRYPT, MODE_ENC or MODE_DEC, by SOFTRESET, or by the reset pin
(R30, R43). -/
def Obligations.OutputChangesOnlyByBlockCommandsOrReset : Prop :=
  ∀ s t : State, step s = .next t → t.doutbuf ≠ s.doutbuf →
    (∃ l rest, s.inputs = .pin l :: rest) ∨
      (s.coreNext.isSome = true ∧ s.rst = false ∧ t.err = .ok ∧
        ∃ c ∈ [0x00000020#32, 0x00000002#32, 0x00000003#32, 0x00000011#32, 0x00000012#32], s.pending = some c)

/-- The controller's transitions (R200): a session opens only by a successful MODE_INIT, and closes only by MODE_CLEAR,
SOFTRESET or the reset pin. -/
def Obligations.SessionTransitions : Prop :=
  ∀ s t : State, step s = .next t →
    (s.sess = false → t.sess = true →
      s.coreNext.isSome = true ∧ s.rst = false ∧ s.pending = some 0x00000010#32 ∧ t.err = .ok) ∧
    (s.sess = true → t.sess = false →
      (∃ l rest, s.inputs = .pin l :: rest) ∨
        (s.coreNext.isSome = true ∧ s.rst = false ∧
          (s.pending = some 0x00000013#32 ∨ s.pending = some 0x00000020#32)))

/-- The state after reset meets the invariants of R44. That the DEAL store is empty there, with count 0, is the model's
choice (log entries 4 and 8). -/
def Obligations.ResetMeetsTheStateInvariants : Prop := State.reset.Inv

/-- R44: every step keeps the state invariants, from every state that meets them. -/
def Obligations.StepKeepsTheStateInvariants : Prop :=
  ∀ s t : State, s.Inv → step s = .next t → t.Inv

/-- While a command is pending DONE and ERR are clear, and every step keeps that (R302, R303). -/
def Obligations.BusyMeansNotDone : Prop :=
  ∀ s t : State, s.PendingInv → (s.busy = true → s.done = false ∧ s.err = .ok) → step s = .next t →
    t.PendingInv ∧ (t.busy = true → t.done = false ∧ t.err = .ok)

/-! ## The transforms -/

/-- R100, R101 and the first law of R104: the bit primitives. Bit i is bit 7 - (i mod 8) of byte i div 8, which is bit i of
`bits(B)`; setBit changes that bit and no other; both fail with RANGE exactly outside `[0, 8·len(B))`; writing back what
was read changes nothing. -/
def Obligations.BitPrimitives : Prop :=
  ∀ (B : List Byte) (i : Nat),
    (i < 8 * B.length → getBit B i = .ok ((B.getD (i / 8) 0#8).getLsbD (7 - i % 8)) ∧
      getBit B i = .ok ((bitsOf B).getMsbD i)) ∧
    (8 * B.length ≤ i → getBit B i = .error .range ∧ ∀ v, setBit B i v = .error .range) ∧
    (i < 8 * B.length → ∀ v, ∃ B', setBit B i v = .ok B' ∧ B'.length = B.length ∧
      ∀ j, j < 8 * B.length → getBit B' j = if j = i then .ok v else getBit B j) ∧
    (∀ v, getBit B i = .ok v → setBit B i v = .ok B)

/-- R102: permute fails exactly when some entry lies outside the input, and otherwise output bit i is the input bit its
entry names. -/
def Obligations.PermuteBoundsAndBits : Prop :=
  ∀ (n : Nat) (x : BitVec n) (T : List Int) (msbFirst : Bool) (o : Int),
    (permute x T msbFirst o = .error .range ↔ ∃ t ∈ T, t - o < 0 ∨ (n : Int) ≤ t - o) ∧
    (∀ e, permute x T msbFirst o = .error e → e = .range) ∧
    (∀ out, permute x T msbFirst o = .ok out → ∀ i (h : i < T.length),
      out.getMsbD i = if msbFirst then x.getMsbD (T[i] - o).toNat else x.getMsbD (n - 1 - (T[i] - o).toNat))

/-- R105 to R110: each wired permutation is the generic one with its table, `msbFirst = true` and `originOffset = 1`, and
never fails. The outputs are compared bit by bit. -/
def Obligations.WiredPermutationsAreTheTables : Prop :=
  (∀ k : Block64, ∃ out, permute k (pc1Table.map Int.ofNat) true 1 = .ok out ∧ ∀ i < 56, (pc1 k).getMsbD i = out.getMsbD i) ∧
    (∀ cd : BitVec 56, ∃ out, permute cd (pc2Table.map Int.ofNat) true 1 = .ok out ∧
      ∀ i < 48, (pc2 cd).getMsbD i = out.getMsbD i) ∧
    (∀ r : BitVec 32, ∃ out, permute r (eTable.map Int.ofNat) true 1 = .ok out ∧
      ∀ i < 48, (expandE r).getMsbD i = out.getMsbD i) ∧
    (∀ s : BitVec 32, ∃ out, permute s (pTable.map Int.ofNat) true 1 = .ok out ∧
      ∀ i < 32, (permP s).getMsbD i = out.getMsbD i)

/-- R123: for every round transform that does not fail, decryption undoes encryption and encryption undoes decryption. -/
def Obligations.FeistelInversion : Prop :=
  ∀ (h : Nat) (RK : Type) (F : BitVec h → RK → Except PrimFail (BitVec h)) (rk : List RK) (X : BitVec (h + h)),
    (∀ r k, ∃ f, F r k = .ok f) →
      (∃ Y, feistelEncryptE F rk X = .ok Y ∧ feistelDecryptE F rk Y = .ok X) ∧
        (∃ Y, feistelDecryptE F rk X = .ok Y ∧ feistelEncryptE F rk Y = .ok X)

/-- R124, R127, R128: both builds of the iterator, in both directions, compute exactly the functions of R121 and R122. -/
def Obligations.BothBuildsComputeTheFunction : Prop :=
  ∀ (impl : FeistelImpl) (h : Nat) (RK : Type) (F : BitVec h → RK → BitVec h) (rk : List RK) (X : BitVec (h + h)),
    feistelEncryptE (fun r k => .ok (F r k)) rk X = .ok (feistelBuild impl F rk .enc X) ∧
      feistelDecryptE (fun r k => .ok (F r k)) rk X = .ok (feistelBuild impl F rk .dec X)

/-- R140, and the loop of R142: round key r is PC2 of the halves of PC1 rotated by the rotation amounts of rounds 1 to r+1
together, and after round 16 each half has turned through its full width. -/
def Obligations.DesRoundKeysAreCumulativeRotations : Prop :=
  (∀ r, 1 ≤ r → r ≤ 16 → shiftTable[r - 1]? = some (if r ∈ [1, 2, 9, 16] then 1 else 2)) ∧ shiftTable.sum = 28 ∧
    (∀ k : Block64, (desSchedule k)[15] = pc2 (pc1 k)) ∧
    ∀ (k : Block64) (r : Nat) (h : r < 16),
      let total := (shiftTable.take (r + 1)).sum
      (desSchedule k)[r] =
        pc2 (((pc1 k).extractLsb' 28 28).rotateLeft total ++ ((pc1 k).extractLsb' 0 28).rotateLeft total)

/-- R144: two keys that differ only in the least significant bit of their bytes have the same schedule, and SETKEY accepts
a DES key whatever its parity. -/
def Obligations.ParityBitsAreIgnored : Prop :=
  (∀ k k' : Block64, (∀ i < 64, i % 8 ≠ 7 → k.getMsbD i = k'.getMsbD i) → desSchedule k = desSchedule k') ∧
    (∀ (s : State) (b : BitVec 256), s.cfgAlg = .des → s.cfgKeylen = 8 →
      ∃ t, exec .setkey { s with keybuf := b } = .next t ∧ t.err = .ok ∧ t.kvd = true)

/-- Every row of every S-box is a permutation of 0..15 (R164), and the exposed substitution step fails with WIDTH exactly
off 48 bits (R166). -/
def Obligations.SubstitutionRomAndWidth : Prop :=
  (∀ k < 8, ∀ row < 4, ((List.range 16).map fun col => (sboxAt k row col).toNat).Perm (List.range 16)) ∧
    (∀ (n : Nat) (x : BitVec n), substituteStep x = .error .width ↔ n ≠ 48) ∧
    (∀ x : BitVec 48, substituteStep x = .ok (substitute x))

/-- Complementing key and block complements the DES ciphertext (spec/95_test_vectors.md section 5, D9). -/
def Obligations.DesComplementation : Prop :=
  ∀ k x : Block64, desEncrypt (desSchedule (~~~k)) (~~~x) = ~~~desEncrypt (desSchedule k) x

/-- R182, R183: a DEAL schedule has 6, 8 or 12 round keys for a master key of 16, 24 or 32 bytes, round key i being the
8 bytes from 8·(i mod (L/8)); any other length fails with KEY_LEN. -/
def Obligations.DealScheduleWindows : Prop :=
  ∀ MK : List Byte,
    (∀ nr, (MK.length, nr) ∈ [(16, 6), (24, 8), (32, 12)] → ∃ rk, dealKeySchedule MK = .ok rk ∧ rk.length = nr ∧
      ∀ i < nr, ∀ j < 8, (rk[i]?.map fun k => byteAt k j) = MK[8 * (i % (MK.length / 8)) + j]?) ∧
    (MK.length ∉ [16, 24, 32] → dealKeySchedule MK = .error .keyLen)

/-- R185, R187, R188: running the rounds with the internal DES instance re-keyed in each gives DEAL's ciphertext and leaves
the schedule of the last round key used. -/
def Obligations.DealRekeyingGivesTheCipher : Prop :=
  ∀ (inner : DesSchedule) (rk : List Block64) (X : Block128),
    dealRekeying .enc inner rk X = (innerAfterEnc rk inner, dealEncrypt rk X) ∧
      dealRekeying .dec inner rk X = (innerAfterDec rk inner, dealDecrypt rk X)

/-- DECRYPT after ENCRYPT on DOUT's value returns the block (R233, R123): for DES the first 8 bytes, for DEAL all 16. -/
def Obligations.DecryptUndoesEncrypt : Prop :=
  ∀ s t u : State, s.cfgDlen = blockSize s.cfgAlg → s.keyValid s.cfgAlg = true → exec .encrypt s = .next t →
    exec .decrypt { t with dinbuf := t.doutbuf } = .next u →
    u.err = .ok ∧
      (s.cfgAlg = .des → u.doutbuf = s.dinbuf.extractLsb' 64 64 ++ 0#64) ∧ (s.cfgAlg = .deal → u.doutbuf = s.dinbuf)

/-- R212: in each mode, decrypting in order the blocks an equal session encrypted returns the plaintext blocks, and the two
sessions' chaining values are equal block by block. -/
def Obligations.ModeRoundTrip : Prop :=
  ∀ (n : Nat) (m : Mode) (E Einv : BitVec n → BitVec n) (D CV : BitVec n) (P : List (BitVec n)),
    (∀ x, Einv (E x) = x) →
      let C := chainRun .enc m E Einv D P CV
      let Q := chainRun .dec m E Einv D (C.map (·.Y)) CV
      Q.map (·.Y) = P ∧ Q.map (·.CV) = C.map (·.CV)

/-- R271: the padding round trip, for both block sizes, every draw and every plaintext; for Zeros exactly when the
plaintext is empty or its last byte is not zero. -/
def Obligations.PaddingRoundTrip : Prop :=
  ∀ (a : Alg) (draw : Nat → Byte) (P : List Byte),
    (∀ scheme, scheme ≠ .zeros → unpad scheme (blockSize a) (pad scheme (blockSize a) draw P) = .ok P) ∧
      (unpad .zeros (blockSize a) (pad .zeros (blockSize a) draw P) = .ok P ↔ P = [] ∨ P.getLast? ≠ some 0x00#8)

/-- The whole message procedure (R260, R261): on an idle core with a key, a legal mode and legal lengths, a message
encrypted under a padding scheme that keeps it decrypts to itself, whatever the number of polls before each completion
(an argument of the model's procedures, log entry 16). -/
def Obligations.MessageRoundTrip : Prop :=
  ∀ (s : State) (m : Mode) (scheme : PadScheme) (draw : Nat → Byte) (P : List Byte) (turnEnc turnDec : Nat),
    s.busy = false → s.pending = none → s.rst = false → s.cfgMode = modeBits m →
    (m ≠ .ecb → s.cfgIvlen = blockSize s.cfgAlg) → s.cfgDlen = blockSize s.cfgAlg → s.keyValid s.cfgAlg = true →
    (scheme = .zeros → P = [] ∨ P.getLast? ≠ some 0x00#8) →
    ∃ C t u, encryptMessage turnEnc scheme draw P s = .next (.ok C, t) ∧ C.length % blockSize s.cfgAlg = 0 ∧
      decryptMessage turnDec scheme C t = .next (.ok P, u)
end

