-- ==== Sys2Proof/Laws/BitPermutation.lean ====
section
/-! SUPPORT. The bits of a selection, that selections, and with them the wired permutations, respect exclusive-or,
and the bytes of a packed byte string. -/

namespace Sys2Proof.Machine

variable {n : Nat}

/-- Bit 0 of a string with a bit put in front of it is that bit; the others move up by one. -/
theorem getMsbD_cons (b : Bool) (x : BitVec n) (j : Nat) :
    (BitVec.cons b x).getMsbD j = if j = 0 then b else x.getMsbD (j - 1) := by
  cases j with
  | zero => simp [BitVec.cons, BitVec.getMsbD_append]
  | succ j => simp [BitVec.cons, BitVec.getMsbD_append]

/-- Output bit j of a selection is the input bit its j-th index names. -/
theorem selectBits_getMsbD (x : BitVec n) (idx : List Nat) (j : Nat) (hj : j < idx.length) :
    (selectBits x idx).getMsbD j = x.getMsbD idx[j] := by
  induction idx generalizing j with
  | nil => simp at hj
  | cons i is ih =>
    cases j with
    | zero => simp [selectBits, getMsbD_cons]
    | succ j =>
      have hj' : j < is.length := by simpa using hj
      simp [selectBits, ih j hj']

/-- Two selections from the same indices agree where the inputs agree on those indices. -/
theorem selectBits_congr (x y : BitVec n) (idx : List Nat) (h : ∀ i ∈ idx, x.getMsbD i = y.getMsbD i) :
    selectBits x idx = selectBits y idx := by
  apply BitVec.eq_of_getMsbD_eq
  intro j hj
  rw [selectBits_getMsbD x idx j hj, selectBits_getMsbD y idx j hj]
  exact h _ (List.getElem_mem hj)

theorem selectBits_xor (x y : BitVec n) (idx : List Nat) :
    selectBits (x ^^^ y) idx = selectBits x idx ^^^ selectBits y idx := by
  apply BitVec.eq_of_getMsbD_eq
  intro j hj
  simp [selectBits_getMsbD _ idx j hj]

/-- A wired permutation respects exclusive-or. -/
theorem wire_xor (x y : BitVec n) (T : List Nat) : wire (x ^^^ y) T = wire x T ^^^ wire y T := by
  apply BitVec.eq_of_getMsbD_eq
  intro j hj
  have hj' : j < (T.map (· - 1)).length := by simpa using hj
  simp only [wire, BitVec.getMsbD_cast, BitVec.getMsbD_xor, selectBits_getMsbD _ _ j hj']

/-- Output bit j of a wired permutation is the input bit its j-th table entry names, counted from 1 (R105). -/
theorem wire_getMsbD (x : BitVec n) (T : List Nat) (j : Nat) (hj : j < T.length) :
    (wire x T).getMsbD j = x.getMsbD (T[j] - 1) := by
  have hj' : j < (T.map (· - 1)).length := by simpa using hj
  simp [wire, selectBits_getMsbD _ _ j hj']

/-- Two inputs that agree on the positions a table names give the same output. -/
theorem wire_congr (x y : BitVec n) (T : List Nat) (h : ∀ t ∈ T, x.getMsbD (t - 1) = y.getMsbD (t - 1)) :
    wire x T = wire y T := by
  apply BitVec.eq_of_getMsbD_eq
  intro j hj
  rw [wire_getMsbD x T j hj, wire_getMsbD y T j hj]
  exact h _ (List.getElem_mem hj)

/-- Bit i, from the least significant end, after m bytes are packed: that of the byte it lies in. -/
theorem packBytes_fold_getLsbD (n : Nat) (B : List Byte) (m i : Nat) (hi : i < n) :
    ((List.range m).foldl (fun (acc : BitVec n) j => (acc <<< 8) ||| (B.getD j 0#8).setWidth n) 0#n).getLsbD i =
      if i < 8 * m then (B.getD (m - 1 - i / 8) 0#8).getLsbD (i % 8) else false := by
  induction m generalizing i with
  | zero => simp
  | succ m ih =>
    rw [List.range_succ, List.foldl_append, List.foldl_cons, List.foldl_nil, BitVec.getLsbD_or, BitVec.getLsbD_shiftLeft,
      BitVec.getLsbD_setWidth]
    by_cases h8 : i < 8
    · rw [if_pos (by omega), show m + 1 - 1 - i / 8 = m by omega, Nat.mod_eq_of_lt h8]
      simp [h8, hi]
    · rw [ih (i - 8) (by omega), BitVec.getLsbD_of_ge (B.getD m 0#8) i (by omega)]
      simp only [hi, h8, decide_true, decide_false, Bool.not_false, Bool.and_true, Bool.true_and, Bool.and_false, Bool.or_false]
      by_cases hm : i < 8 * (m + 1)
      · rw [if_pos (by omega), if_pos hm, show (i - 8) % 8 = i % 8 by omega, show m - 1 - (i - 8) / 8 = m + 1 - 1 - i / 8 by omega]
      · rw [if_neg (by omega), if_neg hm]

/-- A byte string whose bytes are those of a bit vector of whole bytes packs to it (R9). -/
theorem packBytes_eq_of_byteAt {m : Nat} (B : List Byte) (x : BitVec (8 * m)) (h : ∀ j < m, B.getD j 0#8 = byteAt x j) :
    packBytes (8 * m) B = x := by
  apply BitVec.eq_of_getLsbD_eq
  intro i hi
  rw [packBytes, packBytes_fold_getLsbD _ _ _ _ hi, if_pos (by omega), h _ (by omega)]
  simp only [byteAt, BitVec.getLsbD_extractLsb', decide_eq_true (show i % 8 < 8 by omega), Bool.true_and]
  congr 1
  omega

/-- Byte j of a piece that starts q bytes into a string is byte q + j of the string. -/
theorem byteAt_extractLsb' {n : Nat} (b : BitVec n) (m q j : Nat) (hj : j < m) (hq : 8 * (q + m) ≤ n) :
    byteAt (b.extractLsb' (n - 8 * (q + m)) (8 * m)) j = byteAt b (q + j) := by
  apply BitVec.eq_of_getLsbD_eq
  intro i hi
  simp only [byteAt, BitVec.getLsbD_extractLsb', hi, decide_true, Bool.true_and]
  rw [decide_eq_true (by omega), Bool.true_and]
  congr 1
  omega

end Sys2Proof.Machine
end

