-- ==== Sys2Proof/Laws/Feistel.lean ====
section
/-! SUPPORT. One Feistel round and its undoing, and the halves of a block. -/

namespace Sys2Proof.Machine

variable {h : Nat} {RK : Type}

/-- A decryption round undoes the encryption round with the same key (R123). -/
theorem roundDec_roundEnc (F : BitVec h → RK → BitVec h) (p : BitVec h × BitVec h) (k : RK) :
    roundDec F (roundEnc F p k) k = p := by
  simp [roundDec, roundEnc]

/-- An encryption round undoes the decryption round with the same key (R123). -/
theorem roundEnc_roundDec (F : BitVec h → RK → BitVec h) (p : BitVec h × BitVec h) (k : RK) :
    roundEnc F (roundDec F p k) k = p := by
  simp [roundDec, roundEnc]

/-- The first half of `L ‖ R` is L. -/
@[simp] theorem leftHalf_append (L R : BitVec h) : leftHalf (L ++ R) = L := by
  apply BitVec.eq_of_getLsbD_eq
  intro i hi
  simp only [leftHalf, BitVec.getLsbD_extractLsb', BitVec.getLsbD_append, hi, decide_true, Bool.true_and]
  rw [if_neg (by omega)]
  congr 1
  omega

/-- The second half of `L ‖ R` is R. -/
@[simp] theorem rightHalf_append (L R : BitVec h) : rightHalf (L ++ R) = R := by
  apply BitVec.eq_of_getLsbD_eq
  intro i hi
  simp only [rightHalf, BitVec.getLsbD_extractLsb', BitVec.getLsbD_append, hi, decide_true, Bool.true_and, Nat.zero_add,
    if_true]

/-- A block is its first half, then its second. -/
theorem leftHalf_append_rightHalf (X : BitVec (h + h)) : leftHalf X ++ rightHalf X = X := by
  apply BitVec.eq_of_getLsbD_eq
  intro i hi
  simp only [leftHalf, rightHalf, BitVec.getLsbD_append, BitVec.getLsbD_extractLsb', Nat.zero_add]
  by_cases hlt : i < h
  · rw [if_pos hlt, decide_eq_true hlt, Bool.true_and]
  · rw [if_neg hlt, decide_eq_true (by omega : i - h < h), Bool.true_and]
    congr 1
    omega

end Sys2Proof.Machine
end

