-- ==== Sys2Proof/Laws/State.lean ====
section
/-! SUPPORT. One lemma per field per named update of State, true by rfl, so that no later proof unfolds a record update. -/

namespace Sys2Proof.Machine

/-! ### Acceptance (R302) -/

@[simp] theorem State.accept_ie (s : State) (c : Word) : (s.accept c).ie = s.ie := rfl
@[simp] theorem State.accept_cfg (s : State) (c : Word) : (s.accept c).cfg = s.cfg := rfl
@[simp] theorem State.accept_busy (s : State) (c : Word) : (s.accept c).busy = true := rfl
@[simp] theorem State.accept_done (s : State) (c : Word) : (s.accept c).done = false := rfl
@[simp] theorem State.accept_haz (s : State) (c : Word) : (s.accept c).haz = s.haz := rfl
@[simp] theorem State.accept_err (s : State) (c : Word) : (s.accept c).err = .ok := rfl
@[simp] theorem State.accept_kvd (s : State) (c : Word) : (s.accept c).kvd = s.kvd := rfl
@[simp] theorem State.accept_kvl (s : State) (c : Word) : (s.accept c).kvl = s.kvl := rfl
@[simp] theorem State.accept_sess (s : State) (c : Word) : (s.accept c).sess = s.sess := rfl
@[simp] theorem State.accept_salg (s : State) (c : Word) : (s.accept c).salg = s.salg := rfl
@[simp] theorem State.accept_smode (s : State) (c : Word) : (s.accept c).smode = s.smode := rfl
@[simp] theorem State.accept_ecmd (s : State) (c : Word) : (s.accept c).ecmd = s.ecmd := rfl
@[simp] theorem State.accept_dnr (s : State) (c : Word) : (s.accept c).dnr = s.dnr := rfl
@[simp] theorem State.accept_keybuf (s : State) (c : Word) : (s.accept c).keybuf = s.keybuf := rfl
@[simp] theorem State.accept_dinbuf (s : State) (c : Word) : (s.accept c).dinbuf = s.dinbuf := rfl
@[simp] theorem State.accept_doutbuf (s : State) (c : Word) : (s.accept c).doutbuf = s.doutbuf := rfl
@[simp] theorem State.accept_ivbuf (s : State) (c : Word) : (s.accept c).ivbuf = s.ivbuf := rfl
@[simp] theorem State.accept_deltabuf (s : State) (c : Word) : (s.accept c).deltabuf = s.deltabuf := rfl
@[simp] theorem State.accept_cvbuf (s : State) (c : Word) : (s.accept c).cvbuf = s.cvbuf := rfl
@[simp] theorem State.accept_rkDes (s : State) (c : Word) : (s.accept c).rkDes = s.rkDes := rfl
@[simp] theorem State.accept_rkDeal (s : State) (c : Word) : (s.accept c).rkDeal = s.rkDeal := rfl
@[simp] theorem State.accept_nrDeal (s : State) (c : Word) : (s.accept c).nrDeal = s.nrDeal := rfl
@[simp] theorem State.accept_dealInnerRk (s : State) (c : Word) : (s.accept c).dealInnerRk = s.dealInnerRk := rfl
@[simp] theorem State.accept_sDelta (s : State) (c : Word) : (s.accept c).sDelta = s.sDelta := rfl
@[simp] theorem State.accept_pending (s : State) (c : Word) : (s.accept c).pending = some c := rfl
@[simp] theorem State.accept_rst (s : State) (c : Word) : (s.accept c).rst = s.rst := rfl
@[simp] theorem State.accept_inputs (s : State) (c : Word) : (s.accept c).inputs = s.inputs := rfl
@[simp] theorem State.accept_readData (s : State) (c : Word) : (s.accept c).readData = s.readData := rfl
@[simp] theorem State.accept_draws (s : State) (c : Word) : (s.accept c).draws = s.draws := rfl

/-! ### Completion (R303) -/

@[simp] theorem State.complete_ie (s : State) (op : BitVec 8) (e : ErrCode) : (s.complete op e).ie = s.ie := rfl
@[simp] theorem State.complete_cfg (s : State) (op : BitVec 8) (e : ErrCode) : (s.complete op e).cfg = s.cfg := rfl
@[simp] theorem State.complete_busy (s : State) (op : BitVec 8) (e : ErrCode) : (s.complete op e).busy = false := rfl
@[simp] theorem State.complete_done (s : State) (op : BitVec 8) (e : ErrCode) : (s.complete op e).done = true := rfl
@[simp] theorem State.complete_haz (s : State) (op : BitVec 8) (e : ErrCode) : (s.complete op e).haz = s.haz := rfl
@[simp] theorem State.complete_err (s : State) (op : BitVec 8) (e : ErrCode) : (s.complete op e).err = e := rfl
@[simp] theorem State.complete_kvd (s : State) (op : BitVec 8) (e : ErrCode) : (s.complete op e).kvd = s.kvd := rfl
@[simp] theorem State.complete_kvl (s : State) (op : BitVec 8) (e : ErrCode) : (s.complete op e).kvl = s.kvl := rfl
@[simp] theorem State.complete_sess (s : State) (op : BitVec 8) (e : ErrCode) : (s.complete op e).sess = s.sess := rfl
@[simp] theorem State.complete_salg (s : State) (op : BitVec 8) (e : ErrCode) : (s.complete op e).salg = s.salg := rfl
@[simp] theorem State.complete_smode (s : State) (op : BitVec 8) (e : ErrCode) : (s.complete op e).smode = s.smode := rfl
@[simp] theorem State.complete_ecmd (s : State) (op : BitVec 8) (e : ErrCode) : (s.complete op e).ecmd = op := rfl
@[simp] theorem State.complete_dnr (s : State) (op : BitVec 8) (e : ErrCode) : (s.complete op e).dnr = s.dnr := rfl
@[simp] theorem State.complete_keybuf (s : State) (op : BitVec 8) (e : ErrCode) : (s.complete op e).keybuf = s.keybuf := rfl
@[simp] theorem State.complete_dinbuf (s : State) (op : BitVec 8) (e : ErrCode) : (s.complete op e).dinbuf = s.dinbuf := rfl
@[simp] theorem State.complete_doutbuf (s : State) (op : BitVec 8) (e : ErrCode) : (s.complete op e).doutbuf = s.doutbuf := rfl
@[simp] theorem State.complete_ivbuf (s : State) (op : BitVec 8) (e : ErrCode) : (s.complete op e).ivbuf = s.ivbuf := rfl
@[simp] theorem State.complete_deltabuf (s : State) (op : BitVec 8) (e : ErrCode) : (s.complete op e).deltabuf = s.deltabuf := rfl
@[simp] theorem State.complete_cvbuf (s : State) (op : BitVec 8) (e : ErrCode) : (s.complete op e).cvbuf = s.cvbuf := rfl
@[simp] theorem State.complete_rkDes (s : State) (op : BitVec 8) (e : ErrCode) : (s.complete op e).rkDes = s.rkDes := rfl
@[simp] theorem State.complete_rkDeal (s : State) (op : BitVec 8) (e : ErrCode) : (s.complete op e).rkDeal = s.rkDeal := rfl
@[simp] theorem State.complete_nrDeal (s : State) (op : BitVec 8) (e : ErrCode) : (s.complete op e).nrDeal = s.nrDeal := rfl
@[simp] theorem State.complete_dealInnerRk (s : State) (op : BitVec 8) (e : ErrCode) : (s.complete op e).dealInnerRk = s.dealInnerRk := rfl
@[simp] theorem State.complete_sDelta (s : State) (op : BitVec 8) (e : ErrCode) : (s.complete op e).sDelta = s.sDelta := rfl
@[simp] theorem State.complete_pending (s : State) (op : BitVec 8) (e : ErrCode) : (s.complete op e).pending = none := rfl
@[simp] theorem State.complete_rst (s : State) (op : BitVec 8) (e : ErrCode) : (s.complete op e).rst = s.rst := rfl
@[simp] theorem State.complete_inputs (s : State) (op : BitVec 8) (e : ErrCode) : (s.complete op e).inputs = s.inputs := rfl
@[simp] theorem State.complete_readData (s : State) (op : BitVec 8) (e : ErrCode) : (s.complete op e).readData = s.readData := rfl
@[simp] theorem State.complete_draws (s : State) (op : BitVec 8) (e : ErrCode) : (s.complete op e).draws = s.draws := rfl

/-! ### A write to STATUS (R27) -/

@[simp] theorem State.writeStatus_ie (s : State) (v : Word) : (s.writeStatus v).ie = s.ie := rfl
@[simp] theorem State.writeStatus_cfg (s : State) (v : Word) : (s.writeStatus v).cfg = s.cfg := rfl
@[simp] theorem State.writeStatus_busy (s : State) (v : Word) : (s.writeStatus v).busy = s.busy := rfl
@[simp] theorem State.writeStatus_done (s : State) (v : Word) : (s.writeStatus v).done = (if v.getLsbD 1 then false else s.done) := rfl
@[simp] theorem State.writeStatus_haz (s : State) (v : Word) : (s.writeStatus v).haz = (if v.getLsbD 2 then false else s.haz) := rfl
@[simp] theorem State.writeStatus_err (s : State) (v : Word) : (s.writeStatus v).err = s.err := rfl
@[simp] theorem State.writeStatus_kvd (s : State) (v : Word) : (s.writeStatus v).kvd = s.kvd := rfl
@[simp] theorem State.writeStatus_kvl (s : State) (v : Word) : (s.writeStatus v).kvl = s.kvl := rfl
@[simp] theorem State.writeStatus_sess (s : State) (v : Word) : (s.writeStatus v).sess = s.sess := rfl
@[simp] theorem State.writeStatus_salg (s : State) (v : Word) : (s.writeStatus v).salg = s.salg := rfl
@[simp] theorem State.writeStatus_smode (s : State) (v : Word) : (s.writeStatus v).smode = s.smode := rfl
@[simp] theorem State.writeStatus_ecmd (s : State) (v : Word) : (s.writeStatus v).ecmd = s.ecmd := rfl
@[simp] theorem State.writeStatus_dnr (s : State) (v : Word) : (s.writeStatus v).dnr = s.dnr := rfl
@[simp] theorem State.writeStatus_keybuf (s : State) (v : Word) : (s.writeStatus v).keybuf = s.keybuf := rfl
@[simp] theorem State.writeStatus_dinbuf (s : State) (v : Word) : (s.writeStatus v).dinbuf = s.dinbuf := rfl
@[simp] theorem State.writeStatus_doutbuf (s : State) (v : Word) : (s.writeStatus v).doutbuf = s.doutbuf := rfl
@[simp] theorem State.writeStatus_ivbuf (s : State) (v : Word) : (s.writeStatus v).ivbuf = s.ivbuf := rfl
@[simp] theorem State.writeStatus_deltabuf (s : State) (v : Word) : (s.writeStatus v).deltabuf = s.deltabuf := rfl
@[simp] theorem State.writeStatus_cvbuf (s : State) (v : Word) : (s.writeStatus v).cvbuf = s.cvbuf := rfl
@[simp] theorem State.writeStatus_rkDes (s : State) (v : Word) : (s.writeStatus v).rkDes = s.rkDes := rfl
@[simp] theorem State.writeStatus_rkDeal (s : State) (v : Word) : (s.writeStatus v).rkDeal = s.rkDeal := rfl
@[simp] theorem State.writeStatus_nrDeal (s : State) (v : Word) : (s.writeStatus v).nrDeal = s.nrDeal := rfl
@[simp] theorem State.writeStatus_dealInnerRk (s : State) (v : Word) : (s.writeStatus v).dealInnerRk = s.dealInnerRk := rfl
@[simp] theorem State.writeStatus_sDelta (s : State) (v : Word) : (s.writeStatus v).sDelta = s.sDelta := rfl
@[simp] theorem State.writeStatus_pending (s : State) (v : Word) : (s.writeStatus v).pending = s.pending := rfl
@[simp] theorem State.writeStatus_rst (s : State) (v : Word) : (s.writeStatus v).rst = s.rst := rfl
@[simp] theorem State.writeStatus_inputs (s : State) (v : Word) : (s.writeStatus v).inputs = s.inputs := rfl
@[simp] theorem State.writeStatus_readData (s : State) (v : Word) : (s.writeStatus v).readData = s.readData := rfl
@[simp] theorem State.writeStatus_draws (s : State) (v : Word) : (s.writeStatus v).draws = s.draws := rfl

/-! ### Opening a session (R201) -/

@[simp] theorem State.openSession_ie (s : State) (m : Mode) : (s.openSession m).ie = s.ie := rfl
@[simp] theorem State.openSession_cfg (s : State) (m : Mode) : (s.openSession m).cfg = s.cfg := rfl
@[simp] theorem State.openSession_busy (s : State) (m : Mode) : (s.openSession m).busy = s.busy := rfl
@[simp] theorem State.openSession_done (s : State) (m : Mode) : (s.openSession m).done = s.done := rfl
@[simp] theorem State.openSession_haz (s : State) (m : Mode) : (s.openSession m).haz = s.haz := rfl
@[simp] theorem State.openSession_err (s : State) (m : Mode) : (s.openSession m).err = s.err := rfl
@[simp] theorem State.openSession_kvd (s : State) (m : Mode) : (s.openSession m).kvd = s.kvd := rfl
@[simp] theorem State.openSession_kvl (s : State) (m : Mode) : (s.openSession m).kvl = s.kvl := rfl
@[simp] theorem State.openSession_sess (s : State) (m : Mode) : (s.openSession m).sess = true := rfl
@[simp] theorem State.openSession_salg (s : State) (m : Mode) : (s.openSession m).salg = s.cfgAlg := rfl
@[simp] theorem State.openSession_smode (s : State) (m : Mode) : (s.openSession m).smode = m := rfl
@[simp] theorem State.openSession_ecmd (s : State) (m : Mode) : (s.openSession m).ecmd = s.ecmd := rfl
@[simp] theorem State.openSession_dnr (s : State) (m : Mode) : (s.openSession m).dnr = s.dnr := rfl
@[simp] theorem State.openSession_keybuf (s : State) (m : Mode) : (s.openSession m).keybuf = s.keybuf := rfl
@[simp] theorem State.openSession_dinbuf (s : State) (m : Mode) : (s.openSession m).dinbuf = s.dinbuf := rfl
@[simp] theorem State.openSession_doutbuf (s : State) (m : Mode) : (s.openSession m).doutbuf = s.doutbuf := rfl
@[simp] theorem State.openSession_ivbuf (s : State) (m : Mode) : (s.openSession m).ivbuf = s.ivbuf := rfl
@[simp] theorem State.openSession_deltabuf (s : State) (m : Mode) : (s.openSession m).deltabuf = s.deltabuf := rfl
@[simp] theorem State.openSession_cvbuf (s : State) (m : Mode) : (s.openSession m).cvbuf = (if m = .ecb then 0#128 else firstBlock s.cfgAlg s.ivbuf) := rfl
@[simp] theorem State.openSession_rkDes (s : State) (m : Mode) : (s.openSession m).rkDes = s.rkDes := rfl
@[simp] theorem State.openSession_rkDeal (s : State) (m : Mode) : (s.openSession m).rkDeal = s.rkDeal := rfl
@[simp] theorem State.openSession_nrDeal (s : State) (m : Mode) : (s.openSession m).nrDeal = s.nrDeal := rfl
@[simp] theorem State.openSession_dealInnerRk (s : State) (m : Mode) : (s.openSession m).dealInnerRk = s.dealInnerRk := rfl
@[simp] theorem State.openSession_sDelta (s : State) (m : Mode) : (s.openSession m).sDelta = (if m = .randomDelta then firstBlock s.cfgAlg s.deltabuf else 0#128) := rfl
@[simp] theorem State.openSession_pending (s : State) (m : Mode) : (s.openSession m).pending = s.pending := rfl
@[simp] theorem State.openSession_rst (s : State) (m : Mode) : (s.openSession m).rst = s.rst := rfl
@[simp] theorem State.openSession_inputs (s : State) (m : Mode) : (s.openSession m).inputs = s.inputs := rfl
@[simp] theorem State.openSession_readData (s : State) (m : Mode) : (s.openSession m).readData = s.readData := rfl
@[simp] theorem State.openSession_draws (s : State) (m : Mode) : (s.openSession m).draws = s.draws := rfl

/-! ### Closing a session (R203) -/

@[simp] theorem State.closeSession_ie (s : State) : (s.closeSession).ie = s.ie := rfl
@[simp] theorem State.closeSession_cfg (s : State) : (s.closeSession).cfg = s.cfg := rfl
@[simp] theorem State.closeSession_busy (s : State) : (s.closeSession).busy = s.busy := rfl
@[simp] theorem State.closeSession_done (s : State) : (s.closeSession).done = s.done := rfl
@[simp] theorem State.closeSession_haz (s : State) : (s.closeSession).haz = s.haz := rfl
@[simp] theorem State.closeSession_err (s : State) : (s.closeSession).err = s.err := rfl
@[simp] theorem State.closeSession_kvd (s : State) : (s.closeSession).kvd = s.kvd := rfl
@[simp] theorem State.closeSession_kvl (s : State) : (s.closeSession).kvl = s.kvl := rfl
@[simp] theorem State.closeSession_sess (s : State) : (s.closeSession).sess = false := rfl
@[simp] theorem State.closeSession_salg (s : State) : (s.closeSession).salg = .des := rfl
@[simp] theorem State.closeSession_smode (s : State) : (s.closeSession).smode = .ecb := rfl
@[simp] theorem State.closeSession_ecmd (s : State) : (s.closeSession).ecmd = s.ecmd := rfl
@[simp] theorem State.closeSession_dnr (s : State) : (s.closeSession).dnr = s.dnr := rfl
@[simp] theorem State.closeSession_keybuf (s : State) : (s.closeSession).keybuf = s.keybuf := rfl
@[simp] theorem State.closeSession_dinbuf (s : State) : (s.closeSession).dinbuf = s.dinbuf := rfl
@[simp] theorem State.closeSession_doutbuf (s : State) : (s.closeSession).doutbuf = s.doutbuf := rfl
@[simp] theorem State.closeSession_ivbuf (s : State) : (s.closeSession).ivbuf = s.ivbuf := rfl
@[simp] theorem State.closeSession_deltabuf (s : State) : (s.closeSession).deltabuf = s.deltabuf := rfl
@[simp] theorem State.closeSession_cvbuf (s : State) : (s.closeSession).cvbuf = 0#128 := rfl
@[simp] theorem State.closeSession_rkDes (s : State) : (s.closeSession).rkDes = s.rkDes := rfl
@[simp] theorem State.closeSession_rkDeal (s : State) : (s.closeSession).rkDeal = s.rkDeal := rfl
@[simp] theorem State.closeSession_nrDeal (s : State) : (s.closeSession).nrDeal = s.nrDeal := rfl
@[simp] theorem State.closeSession_dealInnerRk (s : State) : (s.closeSession).dealInnerRk = s.dealInnerRk := rfl
@[simp] theorem State.closeSession_sDelta (s : State) : (s.closeSession).sDelta = 0#128 := rfl
@[simp] theorem State.closeSession_pending (s : State) : (s.closeSession).pending = s.pending := rfl
@[simp] theorem State.closeSession_rst (s : State) : (s.closeSession).rst = s.rst := rfl
@[simp] theorem State.closeSession_inputs (s : State) : (s.closeSession).inputs = s.inputs := rfl
@[simp] theorem State.closeSession_readData (s : State) : (s.closeSession).readData = s.readData := rfl
@[simp] theorem State.closeSession_draws (s : State) : (s.closeSession).draws = s.draws := rfl

/-! ### Reset of every state element (R43) -/

@[simp] theorem State.resetCore_ie (s : State) : (s.resetCore).ie = false := rfl
@[simp] theorem State.resetCore_cfg (s : State) : (s.resetCore).cfg = 0#20 := rfl
@[simp] theorem State.resetCore_busy (s : State) : (s.resetCore).busy = false := rfl
@[simp] theorem State.resetCore_done (s : State) : (s.resetCore).done = false := rfl
@[simp] theorem State.resetCore_haz (s : State) : (s.resetCore).haz = false := rfl
@[simp] theorem State.resetCore_err (s : State) : (s.resetCore).err = .ok := rfl
@[simp] theorem State.resetCore_kvd (s : State) : (s.resetCore).kvd = false := rfl
@[simp] theorem State.resetCore_kvl (s : State) : (s.resetCore).kvl = false := rfl
@[simp] theorem State.resetCore_sess (s : State) : (s.resetCore).sess = false := rfl
@[simp] theorem State.resetCore_salg (s : State) : (s.resetCore).salg = .des := rfl
@[simp] theorem State.resetCore_smode (s : State) : (s.resetCore).smode = .ecb := rfl
@[simp] theorem State.resetCore_ecmd (s : State) : (s.resetCore).ecmd = 0x00#8 := rfl
@[simp] theorem State.resetCore_dnr (s : State) : (s.resetCore).dnr = 0#4 := rfl
@[simp] theorem State.resetCore_keybuf (s : State) : (s.resetCore).keybuf = 0#256 := rfl
@[simp] theorem State.resetCore_dinbuf (s : State) : (s.resetCore).dinbuf = 0#128 := rfl
@[simp] theorem State.resetCore_doutbuf (s : State) : (s.resetCore).doutbuf = 0#128 := rfl
@[simp] theorem State.resetCore_ivbuf (s : State) : (s.resetCore).ivbuf = 0#128 := rfl
@[simp] theorem State.resetCore_deltabuf (s : State) : (s.resetCore).deltabuf = 0#128 := rfl
@[simp] theorem State.resetCore_cvbuf (s : State) : (s.resetCore).cvbuf = 0#128 := rfl
@[simp] theorem State.resetCore_rkDes (s : State) : (s.resetCore).rkDes = Config.freeRkDes s.draws := rfl
@[simp] theorem State.resetCore_rkDeal (s : State) : (s.resetCore).rkDeal = Config.freeRkDeal s.draws := rfl
@[simp] theorem State.resetCore_nrDeal (s : State) : (s.resetCore).nrDeal = (Config.freeRkDeal s.draws).length := rfl
@[simp] theorem State.resetCore_dealInnerRk (s : State) : (s.resetCore).dealInnerRk = Config.freeInnerRk s.draws := rfl
@[simp] theorem State.resetCore_sDelta (s : State) : (s.resetCore).sDelta = 0#128 := rfl
@[simp] theorem State.resetCore_pending (s : State) : (s.resetCore).pending = none := rfl
@[simp] theorem State.resetCore_rst (s : State) : (s.resetCore).rst = s.rst := rfl
@[simp] theorem State.resetCore_inputs (s : State) : (s.resetCore).inputs = s.inputs := rfl
@[simp] theorem State.resetCore_readData (s : State) : (s.resetCore).readData = s.readData := rfl
@[simp] theorem State.resetCore_draws (s : State) : (s.resetCore).draws = s.draws + 1 := rfl

end Sys2Proof.Machine
end

