-- ==== Sys2Proof/Laws/Ops.lean ====
section
/-! SUPPORT. For each shared operation, what it can do: register words and indices, buffers by word, the completion of a
command, the core's turn and a move of the machine. Later proofs cite these and do not unfold the operations. -/

namespace Sys2Proof.Machine

/-- Every register word has its index (R20). -/
theorem regOf_idxOf : ∀ r : Reg, regOf (idxOf r) = r
  | .ctrl => rfl
  | .cfg => rfl
  | .cmd => rfl
  | .status => rfl
  | .key w => by revert w; decide
  | .din w => by revert w; decide
  | .dout w => by revert w; decide
  | .iv w => by revert w; decide
  | .delta w => by revert w; decide
  | .cv w => by revert w; decide
  | .reserved w => by revert w; decide

/-- Every index names one register word (R20). -/
theorem idxOf_regOf : ∀ idx : Idx, idxOf (regOf idx) = idx := by decide

/-- Reading a register word by its index reads that word (R64). -/
theorem hostRead_idxOf (s : State) (r : Reg) : s.hostRead (idxOf r) = s.readReg r := by
  rw [State.hostRead, regOf_idxOf]

/-- Writing a register word by its index writes that word (R63). -/
theorem hostWrite_idxOf (s : State) (r : Reg) (v : Word) : s.hostWrite (idxOf r) v = s.writeReg r v := by
  rw [State.hostWrite, regOf_idxOf]

/-- A buffer's word is what the last write to that word left, and other words keep their value (R61, R63). -/
theorem wordAt_setWordAt {n : Nat} (b : BitVec n) (v : Word) (w w' : Nat) (hw : 32 * (w + 1) ≤ n) (hw' : 32 * (w' + 1) ≤ n) :
    wordAt (setWordAt b w v) w' = if w' = w then v else wordAt b w' := by
  apply BitVec.eq_of_getLsbD_eq
  intro i hi
  by_cases h : w' = w
  · subst h
    have h1 : n - 32 * (w' + 1) + i < n := by omega
    have h2 : ∀ j, j < 32 → (0xFFFFFFFF#32).getLsbD j = true := by decide
    simp only [wordAt, setWordAt, if_true, BitVec.getLsbD_extractLsb', hi, decide_true, Bool.true_and,
      BitVec.getLsbD_or, BitVec.getLsbD_and, BitVec.getLsbD_not, BitVec.getLsbD_shiftLeft, BitVec.getLsbD_setWidth]
    have h3 : ¬ (n - 32 * (w' + 1) + i < n - 32 * (w' + 1)) := by omega
    have h4 : n - 32 * (w' + 1) + i - (n - 32 * (w' + 1)) = i := by omega
    have h5 : i < n := by omega
    simp [h1, h3, h4, h5, h2 i hi]
  · simp only [wordAt, setWordAt, h, if_false, BitVec.getLsbD_extractLsb', hi, decide_true, Bool.true_and,
      BitVec.getLsbD_or, BitVec.getLsbD_and, BitVec.getLsbD_not, BitVec.getLsbD_shiftLeft, BitVec.getLsbD_setWidth]
    have h1 : n - 32 * (w' + 1) + i < n := by omega
    rcases Nat.lt_or_gt_of_ne h with hlt | hgt
    · have h2 : ¬ (n - 32 * (w' + 1) + i < n - 32 * (w + 1)) := by omega
      have h3 : 32 ≤ n - 32 * (w' + 1) + i - (n - 32 * (w + 1)) := by omega
      simp [h1, h2, BitVec.getLsbD_of_ge _ _ h3]
    · have h2 : n - 32 * (w' + 1) + i < n - 32 * (w + 1) := by omega
      simp [h1, h2]

/-- A write by a host on a core that is not busy happens. -/
theorem unlessBusy_of_idle (s s' : State) (h : s.busy = false) : s.unlessBusy s' = s' := by
  simp [State.unlessBusy, h]

/-- A write while BUSY = 1 only sets HAZ (R340). -/
theorem unlessBusy_of_busy (s s' : State) (h : s.busy = true) : s.unlessBusy s' = { s with haz := true } := by
  simp [State.unlessBusy, h]

/-- Every command ends by completing: exec answers next, with the completion of some result recorded (R303). -/
theorem exec_eq_finish (i : Instr) (s : State) : ∃ r, exec i s = .next (s.finish i.opc r) := by
  cases i <;> exact ⟨_, rfl⟩

/-- What completing can do: it records OK on the state the execution left, or an error on the state as it was (R303, R305). -/
theorem finish_cases (s : State) (op : BitVec 8) (r : Except ErrCode State) :
    (∃ s', r = .ok s' ∧ s.finish op r = s'.complete op .ok) ∨ (∃ e, r = .error e ∧ s.finish op r = s.complete op e) := by
  cases r with
  | ok s' => exact .inl ⟨s', rfl, rfl⟩
  | error e => exact .inr ⟨e, rfl, rfl⟩

/-- What running a command word can do: the decoded command runs, or the word completes with ILLEGAL_CMD (R83). -/
theorem runWord_cases (c : Word) (s : State) :
    (∃ i, decode c = .ok i ∧ runWord c s = exec i s) ∨
      (∃ e, decode c = .error e ∧ runWord c s = .next (s.complete (opcOf c) .illegalCmd)) := by
  unfold runWord
  cases h : decode c with
  | ok i => exact .inl ⟨i, rfl, rfl⟩
  | error e => exact .inr ⟨e, rfl, rfl⟩

/-- What the core's turn can do: idle, or run the pending word (R66, R303). -/
theorem coreTurn_cases (s : State) :
    ((s.pending = none ∨ s.rst = true) ∧ coreTurn s = .next s) ∨
      (∃ c, s.pending = some c ∧ s.rst = false ∧ coreTurn s = runWord c s) := by
  unfold coreTurn
  cases hp : s.pending with
  | none => exact .inl ⟨.inl rfl, rfl⟩
  | some c =>
    cases hr : s.rst with
    | true => exact .inl ⟨.inr rfl, by simp⟩
    | false => exact .inr ⟨c, rfl, rfl, by simp⟩

/-- A pending command on a released core runs at the core's turn. -/
theorem coreTurn_of_pending {s : State} {c : Word} (hp : s.pending = some c) (hr : s.rst = false) :
    coreTurn s = runWord c s := by
  simp [coreTurn, hp, hr]

/-- With nothing pending the core idles. -/
theorem coreTurn_of_idle {s : State} (hp : s.pending = none) : coreTurn s = .next s := by
  simp [coreTurn, hp]

/-- Running a command word always answers next (R301). -/
theorem runWord_next (c : Word) (s : State) : ∃ t, runWord c s = .next t := by
  rcases runWord_cases c s with ⟨i, _, h⟩ | ⟨e, _, h⟩
  · obtain ⟨r, hr⟩ := exec_eq_finish i s
    exact ⟨_, h.trans hr⟩
  · exact ⟨_, h⟩

/-- When the core is next, a step is its turn. -/
theorem step_of_coreNext {s : State} {rest : List Input} (h : s.coreNext = some rest) :
    step s = coreTurn { s with inputs := rest } := by
  unfold State.coreNext at h
  unfold step move
  rcases hl : s.inputs with _ | ⟨x, l⟩
  · rw [hl] at h
    cases h
    show coreTurn s = _
    congr 1
    rw [← hl]
  · rw [hl] at h
    cases x <;> cases h
    rfl

/-- Running one step more is stepping first. -/
theorem run_succ {s t : State} (k : Nat) (h : step s = .next t) :
    Host.Core.run Sys2Proof.core (k + 1) s = Host.Core.run Sys2Proof.core k t := by
  have general : ∀ (M : Host.Core) (a b : M.State), M.step a = .next b → M.run (k + 1) a = M.run k b := by
    intro M a b hab
    rw [Host.Core.run, hab]
  exact general Sys2Proof.core s t h

/-- What a host transaction can do while BUSY = 1: CTRL.IE, DONE, HAZ and the word returned to the host may change, and
nothing else (R63, R64, R340); DONE is not set. -/
theorem transact_while_busy (s : State) (x : Transaction) (hb : s.busy = true) :
    ∃ ie done haz rd, s.transact x = { s with ie := ie, done := done, haz := haz, readData := rd } ∧
      (s.done = false → done = false) := by
  cases x with
  | read idx => exact ⟨s.ie, s.done, s.haz, _, rfl, id⟩
  | write idx v =>
    by_cases hr : s.rst
    · exact ⟨s.ie, s.done, s.haz, s.readData, by rw [State.transact, if_pos hr], id⟩
    · have hw : s.transact (.write idx v) = s.writeReg (regOf idx) v := by simp [State.transact, hr, State.hostWrite]
      rw [hw]
      cases regOf idx <;> simp only [State.writeReg, unlessBusy_of_busy _ _ hb]
      case ctrl => exact ⟨_, s.done, s.haz, s.readData, rfl, id⟩
      case status => exact ⟨s.ie, _, _, s.readData, rfl, by intro h; simp [h]⟩
      case dout => exact ⟨s.ie, s.done, s.haz, s.readData, rfl, id⟩
      case cv => exact ⟨s.ie, s.done, s.haz, s.readData, rfl, id⟩
      case reserved => exact ⟨s.ie, s.done, s.haz, s.readData, rfl, id⟩
      all_goals exact ⟨s.ie, s.done, true, s.readData, rfl, id⟩

/-- What a step can do: the core's turn, a host transaction, or a change of the reset pin (R66, R330). -/
theorem step_cases (s : State) :
    (∃ rest, s.coreNext = some rest ∧ step s = coreTurn { s with inputs := rest }) ∨
      (∃ t rest, s.inputs = .host t :: rest ∧ step s = .next (State.transact { s with inputs := rest } t)) ∨
      (∃ level rest, s.inputs = .pin level :: rest ∧ step s = .next (State.setPin { s with inputs := rest } level)) := by
  unfold step move State.coreNext
  cases hi : s.inputs with
  | nil => exact .inl ⟨[], rfl, by simp [← hi]⟩
  | cons x rest =>
    cases x with
    | core => exact .inl ⟨rest, rfl, rfl⟩
    | host t => exact .inr (.inl ⟨t, rest, rfl, rfl⟩)
    | pin l => exact .inr (.inr ⟨l, rest, rfl, rfl⟩)

end Sys2Proof.Machine
end

