-- ==== Sys2Proof/Laws/Host.lean ====
section
/-! SUPPORT. The host's side: the word last read influences no command, what a poll does, and one host procedure after
another. Later proofs about host programs cite these. -/

namespace Sys2Proof.Machine

/-- No command reads or writes the word the host last read (log entry 6). -/
theorem exec_readData (i : Instr) (s t : State) (r : Word) (h : exec i s = .next t) :
    exec i { s with readData := r } = .next { t with readData := r } := by
  cases i
  case nop => cases h; rfl
  case modeClear => cases h; rfl
  case softreset => cases h; rfl
  case setkey =>
    simp only [exec, execSetkey] at h ⊢; cases h
    congr 1
    unfold setkeyResult
    have e1 : State.cfgAlg {s with readData := r} = s.cfgAlg := rfl
    have e2 : State.cfgKeylen {s with readData := r} = s.cfgKeylen := rfl
    have e3 : State.keyOperand {s with readData := r} = s.keyOperand := rfl
    rw [e1, e2, e3]
    cases s.cfgAlg
    · by_cases hk : s.cfgKeylen ≠ 8
      · dsimp only; rw [if_pos hk, if_pos hk]; rfl
      · dsimp only; rw [if_neg hk, if_neg hk]; cases desKeySchedule s.keyOperand <;> rfl
    · dsimp only; cases dealRounds s.cfgKeylen
      · rfl
      · dsimp only; cases dealKeySchedule s.keyOperand <;> rfl
  case encrypt =>
    simp only [exec, execEncrypt] at h ⊢; cases h
    congr 1
    unfold encryptResult
    have e1 : cipherCheck {s with readData := r} = cipherCheck s := rfl
    rw [e1]; cases cipherCheck s <;> rfl
  case decrypt =>
    simp only [exec, execDecrypt] at h ⊢; cases h
    congr 1
    unfold decryptResult
    have e1 : cipherCheck {s with readData := r} = cipherCheck s := rfl
    rw [e1]; cases cipherCheck s <;> rfl
  case modeInit =>
    simp only [exec, execModeInit] at h ⊢; cases h
    congr 1
    unfold modeInitResult
    have e1 : State.cfgMode {s with readData := r} = s.cfgMode := rfl
    have e2 : State.cfgIvlen {s with readData := r} = s.cfgIvlen := rfl
    have e3 : State.cfgAlg {s with readData := r} = s.cfgAlg := rfl
    rw [e1, e2, e3]; cases modeOfBits s.cfgMode
    · rfl
    · rename_i m; dsimp only
      by_cases hk : m ≠ .ecb ∧ s.cfgIvlen ≠ blockSize s.cfgAlg
      · rw [if_pos hk, if_pos hk]; rfl
      · rw [if_neg hk, if_neg hk]; rfl
  case modeEnc =>
    simp only [exec, execModeEnc] at h ⊢; cases h
    congr 1
    unfold modeBlockResult
    have e1 : sessionCheck {s with readData := r} = sessionCheck s := rfl
    rw [e1]; cases sessionCheck s <;> rfl
  case modeDec =>
    simp only [exec, execModeDec] at h ⊢; cases h
    congr 1
    unfold modeBlockResult
    have e1 : sessionCheck {s with readData := r} = sessionCheck s := rfl
    rw [e1]; cases sessionCheck s <;> rfl

/-- Nor does the completion of any command word. -/
theorem runWord_readData (c : Word) (s t : State) (r : Word) (h : runWord c s = .next t) :
    runWord c { s with readData := r } = .next { t with readData := r } := by
  unfold runWord at h ⊢
  cases hd : decode c with
  | ok i => rw [hd] at h; exact exec_readData i s t r h
  | error e => rw [hd] at h; cases h; rfl

/-- Nor does a turn of the core. -/
theorem coreTurn_readData (s t : State) (r : Word) (h : coreTurn s = .next t) :
    coreTurn { s with readData := r } = .next { t with readData := r } := by
  rcases hp : s.pending with _ | c
  · simp only [coreTurn, hp] at h ⊢
    cases h; simp [hp]
  · rcases hr : s.rst with _ | _
    · rw [coreTurn_of_pending hp hr] at h
      simpa only [coreTurn, hp, hr, Bool.false_eq_true, if_false] using runWord_readData c s t r h
    · simp only [coreTurn, hp, hr, if_true] at h ⊢
      cases h; simp [hp, hr]

/-- A poll returns the STATUS word and changes nothing of DES_core (R27, R64). -/
theorem State.poll_eq {s : State} (hr : s.rst = false) : s.poll = { s with readData := s.statusWord } := by
  unfold State.poll State.transact
  dsimp only
  rw [if_neg (by rw [hr]; decide), hostRead_idxOf, State.readReg]

/-- `s[0]` of a poll is BUSY (R26). -/
theorem State.poll_busy {s : State} (hr : s.rst = false) : s.poll.readData.getLsbD 0 = s.busy := by
  rw [State.poll_eq hr]
  show s.statusWord.getLsbD 0 = s.busy
  simp only [State.statusWord, BitVec.getLsbD_append]; simp

/-- A poll that shows BUSY = 1 before the core's turn: the loop goes on (R88). -/
theorem waitLoop_of_busy {s : State} (turn : Nat) (hr : s.rst = false) (hb : s.busy = true) :
    waitLoop (turn + 1) s = waitLoop turn s.poll := by
  rw [waitLoop, if_pos ((State.poll_busy hr).trans hb)]

/-- A poll that shows BUSY = 0 before the core's turn ends the loop (R88). -/
theorem waitLoop_of_idle {s : State} (turn : Nat) (hr : s.rst = false) (hb : s.busy = false) :
    waitLoop (turn + 1) s = .next (.ok (), s.poll) := by
  rw [waitLoop, if_neg (by rw [State.poll_busy hr, hb]; decide)]

@[simp] theorem hostThen_ok {α β : Type} (a : α) (s : State) (f : α → State → HostResult β) :
    hostThen (.next (.ok a, s)) f = f a s := rfl

@[simp] theorem hostThen_error {α β : Type} (e : HostError) (s : State) (f : α → State → HostResult β) :
    hostThen (.next (.error e, s)) f = .next (.error e, s) := rfl

/-- A procedure after another answers a value only where both do. -/
theorem hostThen_eq_ok {α β : Type} {r : HostResult α} {f : α → State → HostResult β} {b : β} {t : State}
    (h : hostThen r f = .next (.ok b, t)) : ∃ a s, r = .next (.ok a, s) ∧ f a s = .next (.ok b, t) := by
  unfold hostThen at h
  split at h
  · exact ⟨_, _, rfl, h⟩
  all_goals cases h

end Sys2Proof.Machine
end

