-- ==== Sys2Proof/Laws/PerInstr.lean ====
section
/-! SUPPORT. Statements about every command as syntax, one lemma per constructor. -/

namespace Sys2Proof.Laws.RoundTrip

/-- A well-formed command is what its word decodes to (spec/30_encoding.md R82, R83). -/
def Statement (i : Instr) : Prop := i.wf = true → wordWf (encode i) = true ∧ decode (encode i) = .ok i

theorem nop : Statement .nop := fun _ => by decide
theorem setkey : Statement .setkey := fun _ => by decide
theorem encrypt : Statement .encrypt := fun _ => by decide
theorem decrypt : Statement .decrypt := fun _ => by decide
theorem modeInit : Statement .modeInit := fun _ => by decide
theorem modeEnc : Statement .modeEnc := fun _ => by decide
theorem modeDec : Statement .modeDec := fun _ => by decide
theorem modeClear : Statement .modeClear := fun _ => by decide
theorem softreset : Statement .softreset := fun _ => by decide

end Sys2Proof.Laws.RoundTrip
end

