-- ==== Sys2Proof/Tests/Slice0.lean ====
section
/-! SUPPORT. Tests. Every expected value is the spec's: a worked example of a rule, or a vector of
spec/95_test_vectors.md, named in the comment. The second half gives, for each obligation with hypotheses, a concrete
state and operands that meet them. -/

namespace Sys2Proof.Tests

open Sys2Proof Sys2Proof.Machine

-- One theorem at a time: theorems that wait for the kernel each hold a thread and its stack.
set_option Elab.async false

/-! ## Helpers -/

/-- The next state of a step, where there is one. -/
def nextOf (o : Host.Outcome State Fault Refusal) : Option State :=
  match o with
  | .next t => some t
  | .fault _ => none
  | .refused _ => none

/-- A state in which a command word is pending and the core is next. -/
def withPending (s : State) (c : Word) : State := { s with pending := some c, busy := true, done := false, err := .ok }

/-- The STATUS word after one step that runs the command word c. -/
def statusAfter (s : State) (c : Word) : Option Word := (nextOf (step (withPending s c))).map State.statusWord

/-- The key of the worked example (spec/95_test_vectors.md W1). -/
def exampleKey : Block64 := 0x133457799BBCDFF1#64

/-- DES configured for CBC with the worked key stored, its IV and a delta loaded, and P1 in DINBUF. -/
def desReady : State :=
  { State.reset with
    cfg := 0x42082#20, keybuf := exampleKey ++ 0#192, dinbuf := 0x0123456789ABCDEF#64 ++ 0#64
    ivbuf := 0x0011223344556677#64 ++ 0#64, deltabuf := 0x0000000000000003#64 ++ 0#64
    kvd := true, rkDes := desSchedule exampleKey }

/-- `desReady` with its CBC session open. -/
def desSession : State := { desReady with sess := true, smode := .cbc, cvbuf := desReady.ivbuf }

/-- DEAL configured for CTR with a stored 16-byte key. -/
def dealReady : State :=
  { State.reset with
    cfg := 0x8410B#20, keybuf := 0x000102030405060708090A0B0C0D0E0F#128 ++ 0#128
    kvl := true, dnr := 6#4, nrDeal := 6, rkDeal := List.replicate 6 0#64 }

/-- `dealReady` with a session open. -/
def dealSession : State := { dealReady with sess := true, salg := .deal, smode := .ctr }

/-! ## Well-formedness: the checks refuse ill-formed terms -/

theorem test_wf_word_rsv : wordWf 0x00000104#32 = false := by decide
theorem test_wf_word_opc : wordWf 0x00000004#32 = false ∧ wordWf 0x000000FF#32 = false ∧ wordWf 0x00000020#32 = true := by decide
theorem test_wf_cfg : ∀ o ∈ [(⟨2, 0, 0, 0, 0⟩ : CfgOperands), ⟨0, 8, 0, 0, 0⟩, ⟨0, 0, 64, 0, 0⟩, ⟨0, 0, 0, 32, 0⟩, ⟨0, 0, 0, 0, 32⟩],
    o.wf = false := by decide
theorem test_wf_cfg_max : (⟨1, 7, 63, 31, 31⟩ : CfgOperands).wf = true := by decide
theorem test_wf_wr : ∀ r ∈ [Reg.dout 0, .cv 3, .reserved 0], (AsmLine.wr r 0#32).wf = false := by decide
theorem test_wf_rd : (AsmLine.rd (.reserved 31)).wf = false ∧ (AsmLine.rd (.cv 3)).wf = true := by decide
theorem test_wf_buffers : (AsmLine.ldkey (List.replicate 33 0#8)).wf = false ∧ (AsmLine.ldblk (List.replicate 17 0#8)).wf = false ∧
    (AsmLine.ldiv (List.replicate 17 0#8)).wf = false ∧ (AsmLine.lddelta (List.replicate 17 0#8)).wf = false ∧
    (AsmLine.ldkey (List.replicate 32 0#8)).wf = true := by decide

/-! ## Decoding: the words of R82, written out bit by bit, and the illegal words of S10 and S11 -/

theorem test_decode_nop : decode 0b00000000000000000000000000000000#32 = .ok .nop := by decide
theorem test_decode_setkey : decode 0b00000000000000000000000000000001#32 = .ok .setkey := by decide
theorem test_decode_encrypt : decode 0b00000000000000000000000000000010#32 = .ok .encrypt := by decide
theorem test_decode_decrypt : decode 0b00000000000000000000000000000011#32 = .ok .decrypt := by decide
theorem test_decode_modeInit : decode 0b00000000000000000000000000010000#32 = .ok .modeInit := by decide
theorem test_decode_modeEnc : decode 0b00000000000000000000000000010001#32 = .ok .modeEnc := by decide
theorem test_decode_modeDec : decode 0b00000000000000000000000000010010#32 = .ok .modeDec := by decide
theorem test_decode_modeClear : decode 0b00000000000000000000000000010011#32 = .ok .modeClear := by decide
theorem test_decode_softreset : decode 0b00000000000000000000000000100000#32 = .ok .softreset := by decide
theorem test_decode_illegal : decode 0x00000104#32 = .error .rsvNotZero ∧ decode 0x00000004#32 = .error .opcUnassigned ∧
    decode 0x000000FF#32 = .error .opcUnassigned ∧ decode 0x00000021#32 = .error .opcUnassigned := by decide
/-- No word selects two rows of R82. -/
theorem test_rows_disjoint : opcodeRows.Pairwise fun a b => a.1 &&& b.2.1 ≠ b.1 &&& a.2.1 := by decide
theorem test_table_word : decodeTableWord 32 0x13 = some .modeClear ∧ decodeTableWord 8 0x113 = some .modeClear ∧
    decodeTableWord 32 0x113 = none := by decide
theorem test_fetch_word_runs : (nextOf (step (State.reset.withFetchWord 32 0x00))).map State.statusWord = some 0x00000002#32 := by
  decide +kernel
/-- The CFG word of R81's first example, and the operands it carries. -/
theorem test_cfg_word : encodeCfg ⟨0, 1, 8, 8, 8⟩ = 0x00042082#32 ∧ decodeCfg 0x0008410B#32 = ⟨1, 5, 16, 16, 16⟩ := by decide

/-! ## The bit_permutation_unit (vectors B1 to B16) -/

theorem test_getBit : (List.range 17).map (getBit [0x80#8, 0x01#8]) =
    [.ok true] ++ List.replicate 14 (.ok false) ++ [.ok true, .error .range] := by decide
theorem test_setBit : setBit [0x80#8, 0x01#8] 15 false = .ok [0x80#8, 0x00#8] ∧ setBit [0x80#8, 0x01#8] 1 true = .ok [0xC0#8, 0x01#8] ∧
    setBit [0x80#8, 0x01#8] 16 true = .error .range := by decide
theorem test_permute : permute 0x8001#16 [1, 2, 3, 4, 5, 6, 7, 8] true 1 = .ok 0b10000000#8 ∧
    permute 0x8001#16 [1, 2, 3, 4, 5, 6, 7, 8] false 1 = .ok 0b10000000#8 ∧
    permute 0x8001#16 [0, 1, 2, 3, 4, 5, 6, 7] true 0 = .ok 0b10000000#8 ∧ permute 0x8001#16 [16, 1] true 1 = .ok 0b11#2 ∧
    permute 0x8001#16 [] true 1 = .ok 0#0 := by decide
theorem test_permute_range : permute 0x8001#16 [17] true 1 = .error .range ∧ permute 0x8001#16 [0] true 1 = .error .range ∧
    permute 0x8001#16 [16] true 0 = .error .range := by decide
theorem test_permuteBytes : permuteBytes [0x80#8, 0x01#8] [1, 2, 3, 4, 5, 6, 7, 8] true 1 = .ok [0x80#8] ∧
    permuteBytes [0x80#8, 0x01#8] [1] true 1 = .error .raggedOutput ∧ permuteBytes [0x80#8, 0x01#8] [17] true 1 = .error .range := by
  decide
theorem test_pc1 : pc1 exampleKey = 0xF0CCAAF556678F#56 := by decide +kernel
theorem test_expandE : expandE 0x89ABCDEF#32 = 0xC53D57E5BF5F#48 ∧ expandE 0xFFFFFFFF#32 = 0xFFFFFFFFFFFF#48 := by decide +kernel
theorem test_permP : permP 0xE8751598#32 = 0xAE89B20D#32 := by decide +kernel

/-! ## DES (sections 3 to 5) -/

theorem test_subkeys : (desSchedule exampleKey).toList =
    [0x1B02EFFC7072#48, 0x79AED9DBC9E5#48, 0x55FC8A42CF99#48, 0x72ADD6DB351D#48, 0x7CEC07EB53A8#48, 0x63A53E507B2F#48] ++
    [0xEC84B7F618BC#48, 0xF78A3AC13BFB#48, 0xE0DBEBEDE781#48, 0xB1F347BA464F#48, 0x215FD3DED386#48, 0x7571F59467E9#48] ++
    [0x97C5D1FABA41#48, 0x5F43B7F2E73A#48, 0xBF918D3D3F0A#48, 0xCB3D8B0E17F5#48] := by decide +kernel
/-- The key 01 .. 01 has parity bits only. -/
theorem test_subkeys_parity : desSchedule 0x0101010101010101#64 = Vector.replicate 16 0#48 := by decide +kernel
theorem test_keySchedule_length : desKeySchedule [0x13#8] = .error .keyLen := by decide
/-- The spot values of section 4, for the groups 000000, 111111 and 011011. -/
theorem test_sboxes : (List.range 8).map (sboxNibble 0#48) = [14#4, 15#4, 10#4, 7#4, 2#4, 12#4, 4#4, 13#4] ∧
    (List.range 8).map (sboxNibble 0xFFFFFFFFFFFF#48) = [13#4, 9#4, 12#4, 14#4, 3#4, 13#4, 12#4, 11#4] ∧
    (List.range 8).map (sboxNibble 0x6DB6DB6DB6DB#48) = [5#4, 9#4, 11#4, 10#4, 9#4, 11#4, 15#4, 14#4] := by decide +kernel
theorem test_substituteStep_width : substituteStep 0#47 = .error .width ∧ substituteStep 0#49 = .error .width ∧
    substituteStep 0#48 = .ok 0xEFA72C4D#32 := by decide +kernel
/-- F1 to F3. -/
theorem test_desF : desF 0x89ABCDEF#32 0x1B02EFFC7072#48 = 0xAE89B20D#32 ∧ desF 0#32 0#48 = 0xD8D8DBBC#32 ∧
    desF 0xFFFFFFFF#32 0xFFFFFFFFFFFF#48 = 0xD8D8DBBC#32 := by decide +kernel
/-- D1, D4 and D6. -/
theorem test_desEncrypt : desEncrypt (desSchedule 0#64) 0#64 = 0xBBEA0DC21C2087FC#64 ∧
    desEncrypt (desSchedule 0xFEFEFEFEFEFEFEFE#64) 0#64 = 0xF7B6DFD779608C6C#64 ∧
    desEncrypt (desSchedule 0x0123456789ABCDEF#64) 0x4E6F772069732074#64 = 0xAB028412C5F6B922#64 := by decide +kernel
/-- The states after rounds 0, 1 and 2 of the encryption trace of section 5. -/
theorem test_des_trace : ((desSchedule exampleKey).toList.take 3).foldl (roundEnc desF) (0x01234567#32, 0x89ABCDEF#32) =
    (0x1CAAEF37#32, 0x4CB63528#32) := by decide +kernel

/-! ## DEAL (section 6) -/

theorem test_deal_keys : dealKeySchedule (bytesOf 0x000102030405060708090A0B0C0D0E0F1011121314151617#192 24) = .ok
    ([0x0001020304050607#64, 0x08090A0B0C0D0E0F#64, 0x1011121314151617#64, 0x0001020304050607#64, 0x08090A0B0C0D0E0F#64,
      0x1011121314151617#64, 0x0001020304050607#64, 0x08090A0B0C0D0E0F#64]) := by decide +kernel
theorem test_deal_key_lengths : ∀ L ∈ [0, 8, 15, 17, 31, 33], dealKeySchedule (List.replicate L 0#8) = .error .keyLen := by decide
theorem test_dealF_key_length : dealFChecked 0#64 (List.replicate 7 0#8) = .error .keyLen := by decide
/-- The last round of L1's trace, undone: decryption runs DES forward too (R185). -/
theorem test_deal_trace : (roundDec dealF (0xDCFB97771A67D6BD#64, 0x57FB315F43115988#64) 0x08090A0B0C0D0E0F#64) =
    (0x859E0B6747B4EB5D#64, 0xDCFB97771A67D6BD#64) := by decide +kernel
/-- L1. -/
theorem test_dealEncrypt : dealEncrypt ((List.replicate 3 [0x0001020304050607#64, 0x08090A0B0C0D0E0F#64]).flatten)
    0x00112233445566778899AABBCCDDEEFF#128 = 0xDCFB97771A67D6BD57FB315F43115988#128 := by decide +kernel

/-! ## The chaining modes (section 7) -/

/-- The example cipher. -/
def exampleEnc : Block64 → Block64 := desEncrypt (desSchedule exampleKey)

/-- The ciphertext blocks and chaining values of a mode on P1 and P2. -/
def exampleRun (m : Mode) : List Block64 × List Block64 :=
  let out := chainRun .enc m exampleEnc id 0x0000000000000003#64
    [0x0123456789ABCDEF#64, 0x0123456789ABCDEF#64] 0x0011223344556677#64
  (out.map (·.Y), out.map (·.CV))

theorem test_cbc : exampleRun .cbc = ([0x0CE6AF875BD44176#64, 0x3B14EEC581934BD1#64],
    [0x0CE6AF875BD44176#64, 0x3B14EEC581934BD1#64]) := by decide +kernel
theorem test_pcbc : exampleRun .pcbc = ([0x0CE6AF875BD44176#64, 0x03DB090901FD8702#64],
    [0x0DC5EAE0D27F8C99#64, 0x02F84C6E88564AED#64]) := by decide +kernel
theorem test_cfb : exampleRun .cfb = ([0x28DA5F1B6EE2F663#64, 0x8566C6FA40D932FC#64],
    [0x28DA5F1B6EE2F663#64, 0x8566C6FA40D932FC#64]) := by decide +kernel
theorem test_ofb : exampleRun .ofb = ([0x28DA5F1B6EE2F663#64, 0x7D929C488324D5FC#64],
    [0x29F91A7CE7493B8C#64, 0x7CB1D92F0A8F1813#64]) := by decide +kernel
theorem test_ctr : exampleRun .ctr = ([0x28DA5F1B6EE2F663#64, 0x2574C01579298113#64],
    [0x0011223344556678#64, 0x0011223344556679#64]) := by decide +kernel
theorem test_randomDelta : exampleRun .randomDelta = ([0x28DA5F1B6EE2F663#64, 0x6FEE53316C1A5A0E#64],
    [0x001122334455667A#64, 0x001122334455667D#64]) := by decide +kernel
/-- The counter corner cases M1 and M2. -/
theorem test_counters : (chainEnc .ctr id 0#64 0#64 0xFFFFFFFFFFFFFFFF#64).CV = 0#64 ∧
    (chainEnc .randomDelta id 0x0000000000000003#64 0#64 0xFFFFFFFFFFFFFFFE#64).CV = 0x0000000000000001#64 := by decide

/-! ## Host padding (section 8) -/

theorem test_pad : pad .zeros 8 (fun _ => 0xAA#8) [0x01#8] = [0x01#8, 0#8, 0#8, 0#8, 0#8, 0#8, 0#8, 0#8] ∧
    pad .zeros 8 (fun _ => 0xAA#8) [] = [] ∧ pad .pkcs7 8 (fun _ => 0xAA#8) [] = List.replicate 8 0x08#8 ∧
    pad .ansix923 8 (fun _ => 0xAA#8) [0x01#8] = [0x01#8, 0#8, 0#8, 0#8, 0#8, 0#8, 0#8, 0x07#8] ∧
    pad .iso10126 8 (fun _ => 0xAA#8) [0x01#8] = [0x01#8, 0xAA#8, 0xAA#8, 0xAA#8, 0xAA#8, 0xAA#8, 0xAA#8, 0x07#8] := by decide
/-- The unpad corner cases U1 and U3 to U7. -/
theorem test_unpad : unpad .zeros 8 [1#8, 2#8, 0#8, 0#8, 0#8, 0#8, 0#8, 0#8] = .ok [1#8, 2#8] ∧
    unpad .pkcs7 8 [1#8, 2#8, 3#8, 4#8, 5#8, 6#8, 7#8, 0#8] = .error .pad ∧
    unpad .pkcs7 8 [1#8, 2#8, 3#8, 4#8, 5#8, 6#8, 7#8, 9#8] = .error .pad ∧
    unpad .pkcs7 8 [1#8, 2#8, 3#8, 4#8, 5#8, 6#8, 3#8, 2#8] = .error .pad ∧
    unpad .ansix923 8 [1#8, 2#8, 3#8, 4#8, 5#8, 6#8, 3#8, 2#8] = .ok [1#8, 2#8, 3#8, 4#8, 5#8, 6#8] ∧
    unpad .pkcs7 8 [] = .error .pad := by decide

/-! ## The host port and its assembler -/

/-- The example of R61 in R62: KEY0 and KEY1 of the worked key. -/
theorem test_key_words : expand (.ldkey (bytesOf exampleKey 8)) =
    [.access (.write 0x04#6 0x13345779#32), .access (.write 0x05#6 0x9BBCDFF1#32)] := by
  decide +kernel
theorem test_asm : expand (.cmd .modeInit) = [.access (.write 0x02#6 0x10#32)] ∧ expand (.rd (.dout 0)) = [.access (.read 0x10#6)] ∧
    expand .ackdone = [.access (.write 0x03#6 0x2#32)] ∧ expand (.run .setkey) = [.access (.write 0x02#6 0x1#32), .pollWhileBusy] := by
  decide
/-- R81's last example, with MODE and IVLEN omitted (R88). -/
theorem test_cfg_omitted : expand (.cfg { alg := 1, keylen := 32, dlen := 16 }) = [.access (.write 0x01#6 0x00080201#32)] := by decide
/-- Two polls see BUSY = 1, the third sees NOP's completion (R88, S1). -/
theorem test_wait : (match waitLoop 2 (withPending State.reset 0#32) with
    | .next (.ok _, t) => some (t.readData, t.busy)
    | _ => none) = some (0x00000002#32, false) := by decide +kernel
/-- With no command pending the loop ends at its first poll, however late the core's turn would come. -/
theorem test_wait_idle : waitLoop 7 State.reset = .next (.ok (), State.reset) := rfl
/-- P4, case b: the KEY0 write is discarded, SETKEY completes, NOP is accepted and completes: STATUS 0x00000106. -/
theorem test_program_P4b : (match runProgram
      [.line (.cmd .setkey) 0, .line (.wr (.key 0) 0xDEADBEEF#32) 0, .core, .line (.cmd .nop) 0, .line .wait 3, .line (.rd (.key 0)) 0]
      { State.reset with cfg := 0x40080#20, keybuf := exampleKey ++ 0#192 } with
    | .next (.ok _, t) => some (t.statusWord, t.readData)
    | _ => none) = some (0x00000106#32, 0x13345779#32) := by decide +kernel
/-- P4: `wr STATUS, 0x00000006` clears DONE and HAZ and leaves ERR and ECMD. -/
theorem test_status_write : State.statusWord (State.hostWrite
      { State.reset with done := true, haz := true, kvd := true, err := .illegalCmd, ecmd := 0x04#8 } 0x03#6 0x00000006#32) = 0x00040110#32 := by
  decide
/-- P4, case a: a write while SETKEY is pending is discarded, and STATUS then reads 0x00010005. -/
theorem test_hazard : State.statusWord (State.hostWrite { State.reset with busy := true, ecmd := 0x01#8 } 0x04#6 0xDEADBEEF#32) =
    0x00010005#32 := by decide

/-! ## The commands (vectors S1 to S17) -/

theorem test_nop : statusAfter State.reset 0x00000000#32 = some 0x00000002#32 := by decide +kernel
theorem test_illegal : statusAfter State.reset 0x00000104#32 = some 0x00040012#32 ∧ statusAfter State.reset 0x000000FF#32 = some 0x00FF0012#32 := by
  decide +kernel
theorem test_setkey : (nextOf (exec .setkey { State.reset with cfg := 0x40080#20, keybuf := exampleKey ++ 0#192 })).map
    (fun t => (t.statusWord, t.rkDes[0])) = some (0x00010102#32, 0x1B02EFFC7072#48) := by decide +kernel
/-- S12 to S15. -/
theorem test_setkey_deal : [0x8410B#20, 0x80181#20, 0x80201#20, 0x80081#20].map
    (fun c => statusAfter { State.reset with cfg := c } 0x00000001#32) =
      [some 0x06010202#32, some 0x08010202#32, some 0x0C010202#32, some 0x00010022#32] := by decide +kernel
theorem test_encrypt : (nextOf (exec .encrypt { desReady with cfg := 0x40080#20 })).map (fun t => (t.statusWord, t.doutbuf)) =
    some (0x00020102#32, 0x8E5907DC0C465F030000000000000000#128) := by decide +kernel
/-- S4 and S5. -/
theorem test_encrypt_errors : statusAfter { State.reset with cfg := 0x40080#20 } 0x00000002#32 = some 0x00020032#32 ∧
    statusAfter { State.reset with cfg := 0x80080#20 } 0x00000002#32 = some 0x00020042#32 := by decide +kernel
theorem test_decrypt : (nextOf (exec .decrypt { desReady with cfg := 0x40080#20, dinbuf := 0x8E5907DC0C465F03#64 ++ 0#64 })).map
    (fun t => (t.statusWord, t.doutbuf)) = some (0x00030102#32, 0x0123456789ABCDEF0000000000000000#128) := by decide +kernel
/-- P2. -/
theorem test_modeInit : (nextOf (exec .modeInit desReady)).map (fun t => (t.statusWord, t.cvbuf)) =
    some (0x00101502#32, 0x00112233445566770000000000000000#128) := by decide +kernel
/-- S8 and S9. -/
theorem test_modeInit_errors : statusAfter { State.reset with kvd := true, cfg := 0x41082#20 } 0x00000010#32 = some 0x00100152#32 ∧
    statusAfter { State.reset with kvd := true, cfg := 0x4208E#20 } 0x00000010#32 = some 0x00100172#32 := by decide +kernel
/-- P2: the padded message 01 02 03 05 05 05 05 05. -/
theorem test_modeEnc : (nextOf (exec .modeEnc { desSession with dinbuf := 0x0102030505050505#64 ++ 0#64 })).map
    (fun t => (t.statusWord, t.doutbuf, t.cvbuf)) =
      some (0x00111502#32, 0x55C7D04756F15E880000000000000000#128, 0x55C7D04756F15E880000000000000000#128) := by decide +kernel
/-- S7. -/
theorem test_modeEnc_no_session : statusAfter desReady 0x00000011#32 = some 0x00110162#32 := by decide +kernel
theorem test_modeDec : (nextOf (exec .modeDec { desSession with dinbuf := 0x55C7D04756F15E88#64 ++ 0#64 })).map
    (fun t => (t.statusWord, t.doutbuf)) = some (0x00121502#32, 0x01020305050505050000000000000000#128) := by decide +kernel
theorem test_modeClear : (nextOf (exec .modeClear desSession)).map (fun t => (t.statusWord, t.cvbuf)) = some (0x00130102#32, 0#128) := by
  decide +kernel
theorem test_softreset : (nextOf (exec .softreset dealSession)).map (fun t => (t.statusWord, t.cfgWord, t.keybuf)) =
    some (0x00200002#32, 0#32, 0#256) := by decide +kernel
/-- P2's message procedure: the ciphertext of 01 02 03 under PKCS7. -/
theorem test_encryptMessage : (match encryptMessage 1 .pkcs7 (fun _ => 0#8) [1#8, 2#8, 3#8] desReady with
    | .next (r, t) => some (r, t.statusWord)
    | .fault _ => none
    | .refused _ => none) =
      some (.ok [0x55#8, 0xC7#8, 0xD0#8, 0x47#8, 0x56#8, 0xF1#8, 0x5E#8, 0x88#8], 0x00130102#32) := by decide +kernel
/-- U8. -/
theorem test_decryptMessage_ragged : (match decryptMessage 0 .pkcs7 (List.replicate 12 0#8) desReady with
    | .next (r, _) => some r
    | .fault _ => none
    | .refused _ => none) = some (.error .blockLen) := by decide +kernel

/-! ## Witnesses: a state and operands that meet the hypotheses of each obligation, clause by clause -/

theorem witness_DecodeAndEncodeAgree : Instr.softreset.wf = true ∧ decode 0x00000020#32 = .ok .softreset := by decide
theorem witness_CfgWordCarriesItsOperands : (⟨1, 7, 63, 31, 31⟩ : CfgOperands).wf = true ∧ (⟨0, 0, 0, 0, 0⟩ : CfgOperands).wf = true := by
  decide
theorem witness_CfgWriteSetsTheOperandFields : State.reset.busy = false ∧ State.cfgKeylen (State.reset.hostWrite 0x01#6 0xFFFFFFFF#32) = 63 ∧
    State.cfgAlg (State.reset.hostWrite 0x01#6 0xFFFFFFFF#32) = .deal := by decide
theorem witness_StepRunsThePendingCommand :
    let s := { withPending desReady 0x00000010#32 with inputs := [.core, .host (.read 0x03#6)] }
    s.coreNext = some [.host (.read 0x03#6)] ∧ s.pending = some 0x00000010#32 ∧ s.rst = false ∧
      decode 0x00000010#32 = .ok .modeInit ∧ Instr.modeInit.wf = true := by decide
theorem witness_StepPerformsTheNextMove : State.reset.coreNext = some [] ∧ State.reset.pending = none ∧ State.reset.rst = false ∧
    (({ State.reset with inputs := [.host (.write 0x00#6 1#32)] } : State).inputs = .host (.write 0x00#6 1#32) :: []) ∧
    (({ State.reset with inputs := [.host (.read 0x3F#6)] } : State).inputs = .host (.read 0x3F#6) :: []) := by decide
theorem witness_EveryWordIsACommandOrIllegal : (0x00000104#32).extractLsb' 8 24 ≠ 0#24 ∧
    (0x000000FF#32).extractLsb' 0 8 ∉ [0x00#8, 0x01#8, 0x02#8, 0x03#8, 0x10#8, 0x11#8, 0x12#8, 0x13#8, 0x20#8] ∧
    (0x00000020#32).extractLsb' 8 24 = 0#24 ∧ (0x00000020#32).extractLsb' 0 8 = Instr.softreset.opc := by decide
theorem witness_AcceptanceOfACommand : State.reset.busy = false ∧ (withPending State.reset 0#32).busy = true := by decide
theorem witness_PendingCommandCompletes :
    let s := { withPending State.reset 0#32 with inputs := [.host (.read 0x03#6), .host (.read 0x03#6)] }
    s.PendingInv ∧ s.pending = some 0#32 ∧ s.rst = false ∧ ∀ l, Input.pin l ∉ s.inputs := by decide
theorem witness_FailingCommandChangesOnlyStatus :
    (nextOf (runWord 0x00000002#32 State.reset)).map (fun t => decide (t.err ≠ .ok)) = some true := by decide +kernel
/-- A command's answer exists in a small state, for every command; used for the statements about exec's next state. -/
theorem witness_exec_next (i : Instr) : ∃ t, exec i desSession = .next t := by cases i <;> exact ⟨_, rfl⟩
theorem witness_ErrorPriority : (∃ t, runWord 0x00000104#32 State.reset = .next t ∧ t.err = .illegalCmd) ∧ wordWf 0x00000104#32 = false ∧
    ∃ t, exec .encrypt State.reset = .next t := ⟨⟨_, rfl, rfl⟩, by decide, _, rfl⟩
theorem witness_OperandsHoldWhilePending :
    let s := { withPending desReady 0x00000002#32 with inputs := [.host (.write 0x04#6 0xDEADBEEF#32)] }
    s.busy = true ∧ s.inputs = .host (.write 0x04#6 0xDEADBEEF#32) :: [] ∧ ∃ t, step s = .next t := ⟨rfl, rfl, _, rfl⟩
theorem witness_PollsDoNotChangeTheOutcome :
    let s := withPending desReady 0x00000010#32
    s.inputs = [] ∧ s.pending = some 0x00000010#32 ∧ s.rst = false ∧ ∃ t, step s = .next t := ⟨rfl, rfl, rfl, _, rfl⟩
theorem witness_PollsDoNotChangeTheOutcome_wait :
    (let s := withPending desReady 0x00000010#32;
      s.busy = true ∧ s.pending = some 0x00000010#32 ∧ s.rst = false ∧ ∃ t, coreTurn s = .next t) ∧
    State.reset.busy = false ∧ State.reset.pending = none ∧ State.reset.rst = false := ⟨⟨rfl, rfl, rfl, _, rfl⟩, rfl, rfl, rfl⟩

/-- The clauses of `HostWriteByIndex` on BUSY = 0: every index falls under exactly one. -/
theorem witness_HostWriteByIndex_idle : ∀ idx : Idx, ([decide (idx.toNat = 0x00), decide (idx.toNat = 0x01), decide (idx.toNat = 0x02),
    decide (idx.toNat = 0x03), decide (0x04 ≤ idx.toNat ∧ idx.toNat < 0x0C), decide (0x0C ≤ idx.toNat ∧ idx.toNat < 0x10),
    decide ((0x10 ≤ idx.toNat ∧ idx.toNat < 0x14) ∨ 0x1C ≤ idx.toNat), decide (0x14 ≤ idx.toNat ∧ idx.toNat < 0x18),
    decide (0x18 ≤ idx.toNat ∧ idx.toNat < 0x1C)].count true) = 1 := by decide
/-- The clauses of `HostWriteByIndex` on BUSY = 1: every index falls under exactly one. -/
theorem witness_HostWriteByIndex_busy : ∀ idx : Idx, ([decide (idx.toNat = 0x00), decide (idx.toNat = 0x03),
    decide ((0x10 ≤ idx.toNat ∧ idx.toNat < 0x14) ∨ 0x1C ≤ idx.toNat),
    decide (idx.toNat = 0x01 ∨ idx.toNat = 0x02 ∨ (0x04 ≤ idx.toNat ∧ idx.toNat < 0x10) ∨ (0x14 ≤ idx.toNat ∧ idx.toNat < 0x1C))].count
      true) = 1 := by decide
/-- The first and the last word of each buffer, written with BUSY = 0. -/
theorem witness_HostWriteByIndex_boundaries : State.reset.busy = false ∧
    ([(0x04, 0x0B), (0x0C, 0x0F), (0x14, 0x17), (0x18, 0x1B)].map fun p =>
      (State.hostRead (State.reset.hostWrite (BitVec.ofNat 6 p.1) 0xA5A5A5A5#32) (BitVec.ofNat 6 p.1),
        State.hostRead (State.reset.hostWrite (BitVec.ofNat 6 p.2) 0xA5A5A5A5#32) (BitVec.ofNat 6 p.2))) =
      List.replicate 4 (0xA5A5A5A5#32, 0xA5A5A5A5#32) := by decide
theorem witness_ReservedWordsAreInert : 0x20 ≤ (0x20#6).toNat ∧ 0x20 ≤ (0x3F#6).toNat := by decide
theorem witness_BufferBytesAreBigEndianInWords : (0 : Nat) < 8 ∧ 7 < 8 ∧ 31 < 32 ∧ 15 < 16 ∧ byteAt desReady.keybuf 3 = 0x79#8 ∧
    State.hostRead desReady 0x04#6 = 0x13345779#32 := by decide +kernel
theorem witness_HazardFlagIsSticky :
    (∃ t, step { State.reset with haz := true, inputs := [.host (.write 0x03#6 0x4#32)] } = .next t ∧ t.haz = false) ∧
    (∃ t, step { State.reset with haz := true, inputs := [.pin true] } = .next t ∧ t.haz = false) ∧
    (∃ t, step { withPending State.reset 0x20#32 with haz := true } = .next t ∧ t.haz = false) := ⟨⟨_, rfl, rfl⟩, ⟨_, rfl, rfl⟩, ⟨_, rfl, rfl⟩⟩
theorem witness_InterruptFollowsCompletion : (∃ t, runWord 0x00000104#32 State.reset = .next t) ∧ (∃ t, runWord 0x00000020#32 State.reset = .next t) ∧
    0x00000104#32 ≠ 0x00000020#32 ∧ State.reset.busy = false := ⟨⟨_, rfl⟩, ⟨_, rfl⟩, by decide, rfl⟩
theorem witness_InnerScheduleIsUnobservable : ∃ t, step (withPending dealSession 0x11#32) = .next t := ⟨_, rfl⟩
theorem witness_ResetPinHoldsReset :
    (({ desSession with inputs := [.pin true] } : State).inputs = .pin true :: []) ∧
    (let s := { State.reset with rst := true, inputs := [.host (.read 0x03#6)] };
      s.AtReset ∧ s.rst = true ∧ s.inputs = .host (.read 0x03#6) :: [] ∧ Input.host (.read 0x03#6) ≠ .pin false) ∧
    (let s := { State.reset with rst := true, inputs := [.pin false] };
      s.rst = true ∧ s.inputs = .pin false :: []) := by decide

theorem witness_SetkeyStoresTheSchedule :
    (desReady.cfgAlg = .des ∧ desReady.cfgKeylen = 8 ∧ wordAt desReady.keybuf 0 = 0x13345779#32 ∧ wordAt desReady.keybuf 1 = 0x9BBCDFF1#32) ∧
    (∀ p ∈ [(0x8410B#20, 6), (0x80181#20, 8), (0x80201#20, 12)], State.cfgAlg { State.reset with cfg := p.1 } = .deal ∧
      (State.cfgKeylen { State.reset with cfg := p.1 }, p.2) ∈ [(16, 6), (24, 8), (32, 12)]) ∧
    (State.cfgAlg { State.reset with cfg := 0x40070#20 } = .des ∧ State.cfgKeylen { State.reset with cfg := 0x40070#20 } ≠ 8) ∧
    (State.cfgAlg { State.reset with cfg := 0x80081#20 } = .deal ∧ State.cfgKeylen { State.reset with cfg := 0x80081#20 } ∉ [16, 24, 32]) := by
  decide +kernel
theorem witness_EncryptWritesTheBlock :
    (let s := { desReady with cfg := 0x40080#20 };
      s.cfgAlg = .des ∧ s.cfgDlen = 8 ∧ s.kvd = true ∧ s.cfg = 0x40080#20 ∧ wordAt s.dinbuf 0 = 0x01234567#32 ∧ wordAt s.dinbuf 1 = 0x89ABCDEF#32) ∧
    (dealReady.cfgAlg = .deal ∧ dealReady.cfgDlen = 16 ∧ dealReady.kvl = true) ∧
    State.reset.cfgDlen ≠ blockSize State.reset.cfgAlg ∧
    (let s := { State.reset with cfg := 0x40080#20 };
      s.cfgDlen = blockSize s.cfgAlg ∧ s.keyValid s.cfgAlg = false) := by decide +kernel
theorem witness_EncryptWritesTheBlock_key : desReady.rkDes = desSchedule 0x133457799BBCDFF1#64 := rfl
theorem witness_DecryptWritesTheBlock :
    let s := { desReady with cfg := 0x40080#20, dinbuf := 0x8E5907DC0C465F03#64 ++ 0#64 }
    s.cfgAlg = .des ∧ s.cfgDlen = 8 ∧ s.kvd = true ∧ s.cfg = 0x40080#20 ∧ wordAt s.dinbuf 0 = 0x8E5907DC#32 ∧
      wordAt s.dinbuf 1 = 0x0C465F03#32 := by decide +kernel
theorem witness_ModeInitOpensASession :
    (desReady.cfgMode = modeBits .cbc ∧ desReady.cfgIvlen = blockSize desReady.cfgAlg ∧ desReady.cfg = 0x42082#20 ∧
      wordAt desReady.ivbuf 0 = 0x00112233#32 ∧ wordAt desReady.ivbuf 1 = 0x44556677#32) ∧
    State.reset.cfgMode = modeBits .ecb ∧ dealReady.cfgMode = modeBits .ctr ∧ dealReady.cfgIvlen = blockSize dealReady.cfgAlg ∧
    State.cfgMode { State.reset with cfg := 0x4208E#20 } = 7#3 ∧
    (let s := { State.reset with cfg := 0x41082#20 };
      s.cfgMode = modeBits .cbc ∧ Mode.cbc ≠ .ecb ∧ s.cfgIvlen ≠ blockSize s.cfgAlg) := by decide
theorem witness_ModeEncRunsTheEncryptRow :
    (desSession.sess = true ∧ desSession.salg = .des ∧ desSession.cfgDlen = 8 ∧ desSession.kvd = true ∧ desSession.smode = .cbc ∧
      desSession.cfg = 0x42082#20 ∧ desSession.cvbuf.extractLsb' 64 64 = 0x0011223344556677#64 ∧
      desSession.dinbuf.extractLsb' 64 64 = 0x0123456789ABCDEF#64) ∧
    (dealSession.sess = true ∧ dealSession.salg = .deal ∧ dealSession.cfgDlen = 16 ∧ dealSession.kvl = true) ∧
    State.reset.sess = false ∧
    (let s := { desSession with cfg := 0#20 };
      s.sess = true ∧ s.cfgDlen ≠ blockSize s.salg) ∧
    (let s := { desSession with kvd := false };
      s.sess = true ∧ s.cfgDlen = blockSize s.salg ∧ s.keyValid s.salg = false) := by decide +kernel
theorem witness_ModeDecRunsTheDecryptRow :
    let s := { desSession with dinbuf := 0x0CE6AF875BD44176#64 ++ 0#64 }
    s.sess = true ∧ s.salg = .des ∧ s.cfgDlen = 8 ∧ s.kvd = true ∧ s.smode = .cbc ∧ s.cfg = 0x42082#20 ∧
      s.cvbuf.extractLsb' 64 64 = 0x0011223344556677#64 ∧ s.dinbuf.extractLsb' 64 64 = 0x0CE6AF875BD44176#64 := by decide +kernel
theorem witness_ModeDecRunsTheDecryptRow_modes : (∃ t u, exec .modeEnc { desSession with smode := .ofb } = .next t ∧
    exec .modeDec { desSession with smode := .ofb } = .next u) ∧ Mode.ofb ∈ [Mode.ofb, .ctr, .randomDelta] ∧
    ∃ t u, exec .modeEnc { desSession with smode := .cfb } = .next t ∧ exec .modeDec { desSession with smode := .cfb } = .next u :=
  ⟨⟨_, _, rfl, rfl⟩, by decide, _, _, rfl, rfl⟩
theorem witness_ModeClearClosesTheSession : State.reset.SessionInv ∧ State.reset.sess = false :=
  ⟨⟨fun _ => ⟨rfl, rfl, rfl, rfl⟩, fun h => absurd h.1 (by decide)⟩, rfl⟩

theorem witness_CipherCommandsFrame : (∃ t, exec .encrypt dealReady = .next t) ∧ (∃ t, exec .decrypt desReady = .next t) ∧
    desReady.cfgAlg = .des ∧ (0x14#6).toNat ≠ 0x03 ∧ ¬ (0x10 ≤ (0x14#6).toNat ∧ (0x14#6).toNat < 0x14) :=
  ⟨⟨_, rfl⟩, ⟨_, rfl⟩, by decide, by decide, by decide⟩
theorem witness_SessionBlockCommandsFrame : (∃ t, exec .modeEnc desSession = .next t ∧ t.err = .ok) ∧
    (∃ t, exec .modeDec dealSession = .next t) ∧ desSession.salg = .des ∧ (0x18#6).toNat ≠ 0x03 ∧
    ¬ (0x10 ≤ (0x18#6).toNat ∧ (0x18#6).toNat < 0x14) ∧ ¬ (0x1C ≤ (0x18#6).toNat ∧ (0x18#6).toNat < 0x20) :=
  ⟨⟨_, rfl, rfl⟩, ⟨_, rfl⟩, rfl, by decide, by decide, by decide⟩
theorem witness_SessionControlFrame : (∃ t, exec .modeInit desReady = .next t) ∧ (∃ t, exec .modeClear desSession = .next t) ∧
    (0x1B#6).toNat ≠ 0x03 ∧ ¬ (0x1C ≤ (0x1B#6).toNat ∧ (0x1B#6).toNat < 0x20) := ⟨⟨_, rfl⟩, ⟨_, rfl⟩, by decide, by decide⟩
theorem witness_SetkeyFrame : (∃ t, exec .setkey desReady = .next t) ∧ desReady.cfgAlg = .des ∧ (∃ t, exec .setkey dealReady = .next t) ∧
    dealReady.cfgAlg = .deal := ⟨⟨_, rfl⟩, by decide, ⟨_, rfl⟩, by decide⟩
theorem witness_KeyStoresChangeOnlyBySetkeyOrReset :
    (∃ t, step (withPending { State.reset with cfg := 0x40080#20 } 0x01#32) = .next t ∧ t.kvd ≠ State.reset.kvd) ∧
    (∃ t, step (withPending { State.reset with cfg := 0x8410B#20 } 0x01#32) = .next t ∧ t.kvl ≠ State.reset.kvl) :=
  ⟨⟨_, rfl, by decide⟩, ⟨_, rfl, by decide⟩⟩
theorem witness_OutputChangesOnlyByBlockCommandsOrReset :
    ∃ t, step { desReady with doutbuf := 1#128, inputs := [.pin true] } = .next t ∧ t.doutbuf ≠ 1#128 := ⟨_, rfl, by decide⟩
theorem witness_SessionTransitions :
    (∃ t, step (withPending desReady 0x10#32) = .next t ∧ desReady.sess = false ∧ t.sess = true) ∧
    (∃ t, step (withPending desSession 0x13#32) = .next t ∧ desSession.sess = true ∧ t.sess = false) :=
  ⟨⟨_, rfl, rfl, rfl⟩, ⟨_, rfl, rfl, rfl⟩⟩
theorem witness_StepKeepsTheStateInvariants :
    (withPending desReady 0x10#32).Inv ∧ ∃ t, step (withPending desReady 0x10#32) = .next t :=
  ⟨⟨by decide, by decide, fun _ => ⟨rfl, rfl, rfl, rfl⟩, fun h => absurd h.1 (by decide)⟩, _, rfl⟩
theorem witness_BusyMeansNotDone :
    let s := withPending State.reset 0#32
    s.PendingInv ∧ s.busy = true ∧ s.done = false ∧ s.err = .ok ∧ ∃ t, step s = .next t := ⟨rfl, rfl, rfl, rfl, _, rfl⟩

theorem witness_BitPrimitives : 15 < 8 * [0x80#8, 0x01#8].length ∧ 8 * [0x80#8, 0x01#8].length ≤ 16 ∧
    getBit [0x80#8, 0x01#8] 15 = .ok true := by decide
theorem witness_PermuteBoundsAndBits : permute 0x8001#16 [17] true 1 = .error .range ∧ permute 0x8001#16 [16, 1] true 1 = .ok 0b11#2 := by
  decide
theorem witness_FeistelInversion : ∀ (r k : BitVec 4), ∃ f, (fun (r k : BitVec 4) => (.ok (r ^^^ k) : Except PrimFail (BitVec 4))) r k = .ok f :=
  fun _ _ => ⟨_, rfl⟩
theorem witness_DesRoundKeysAreCumulativeRotations : (1 : Nat) ≤ 1 ∧ 16 ≤ 16 ∧ 15 < 16 := by decide
theorem witness_ParityBitsAreIgnored : ∀ i < 64, i % 8 ≠ 7 → (0x0000000000000000#64).getMsbD i = (0x0101010101010101#64).getMsbD i := by
  decide
theorem witness_ParityBitsAreIgnored_setkey : desReady.cfgAlg = .des ∧ desReady.cfgKeylen = 8 := by decide
theorem witness_SubstitutionRomAndWidth : (7 : Nat) < 8 ∧ 3 < 4 ∧ substituteStep 0#47 = .error .width := by decide
theorem witness_DealScheduleWindows : (∀ p ∈ [(16, 6), (24, 8), (32, 12)], ((List.replicate p.1 0x5A#8).length, p.2) ∈
    [(16, 6), (24, 8), (32, 12)]) ∧ (List.replicate 33 0x5A#8).length ∉ [16, 24, 32] ∧ ([] : List Byte).length ∉ [16, 24, 32] := by decide
theorem witness_DecryptUndoesEncrypt :
    (∃ t u, exec .encrypt desReady = .next t ∧ exec .decrypt { t with dinbuf := t.doutbuf } = .next u) ∧
    desReady.cfgDlen = blockSize desReady.cfgAlg ∧ desReady.keyValid desReady.cfgAlg = true ∧ desReady.cfgAlg = .des ∧
    dealReady.cfgDlen = blockSize dealReady.cfgAlg ∧ dealReady.keyValid dealReady.cfgAlg = true ∧ dealReady.cfgAlg = .deal :=
  ⟨⟨_, _, rfl, rfl⟩, by decide, by decide, by decide, by decide, by decide, by decide⟩
theorem witness_ModeRoundTrip : ∀ x : BitVec 4, (~~~(~~~x)) = x := by decide
theorem witness_PaddingRoundTrip : PadScheme.pkcs7 ≠ .zeros := by decide
theorem witness_MessageRoundTrip : desReady.busy = false ∧ desReady.pending = none ∧ desReady.rst = false ∧
    desReady.cfgMode = modeBits .cbc ∧ desReady.cfgIvlen = blockSize desReady.cfgAlg ∧ desReady.cfgDlen = blockSize desReady.cfgAlg ∧
    desReady.keyValid desReady.cfgAlg = true ∧ [0x01#8].getLast? ≠ some 0x00#8 := by decide

end Sys2Proof.Tests
end

/-! SUPPORT. The state of DES_core: what each command's execution, a host transaction, the reset pin and a step can do, said
once; then the statements about the state. -/

namespace Sys2Proof.Machine

/-! ### Words and indices -/

/-- A command word is its RSV field over its OPC field (R80). -/
theorem rsvOf_append_opcOf (c : Word) : rsvOf c ++ opcOf c = c := by
  apply BitVec.eq_of_getLsbD_eq
  intro i hi
  simp only [rsvOf, opcOf, BitVec.getLsbD_append, BitVec.getLsbD_extractLsb']
  by_cases h : i < 8
  · simp [h]
  · have h24 : i - 8 < 24 := by omega
    have hsub : 8 + (i - 8) = i := by omega
    simp [h, h24, hsub]

/-- The only word that decodes to a command is its encoding (R82, R83). -/
theorem eq_encode_of_decode {c : Word} {i : Instr} (h : decode c = .ok i) : c = encode i := by
  unfold decode at h
  split at h
  · cases h
  · next hrsv =>
    have hopc : opcOf c = i.opc := by
      split at h <;> cases h <;> exact BitVec.eq_of_toNat_eq ‹_›
    rw [← rsvOf_append_opcOf c, hopc, not_not.mp hrsv, encode]

/-- The OPC field of a command's word is its opcode (R80). -/
@[simp] theorem opcOf_encode (i : Instr) : opcOf (encode i) = i.opc := by
  cases i <;> decide

/-- The indices 0x20 to 0x3F are the reserved words (R21). -/
theorem regOf_of_reserved {idx : Idx} (h : 0x20 ≤ idx.toNat) : ∃ w, regOf idx = .reserved w := by
  refine ⟨Fin.ofNat 32 (idx.toNat - 0x20), ?_⟩
  unfold regOf
  dsimp only
  iterate 10 rw [if_neg (by omega)]

/-! ### The execution of a command as one function, and what it can do -/

/-- What the execution of a command leaves before its completion is recorded (R303): the state, or the error. -/
def execResult (i : Instr) (s : State) : Except ErrCode State :=
  match i with
  | .nop => .ok s
  | .setkey => setkeyResult s
  | .encrypt => encryptResult s
  | .decrypt => decryptResult s
  | .modeInit => modeInitResult s
  | .modeEnc => modeBlockResult .enc s
  | .modeDec => modeBlockResult .dec s
  | .modeClear => .ok s.closeSession
  | .softreset => .ok s.resetCore

/-- A command is the completion of its result (R303). -/
theorem exec_eq_finish_execResult (i : Instr) (s : State) : exec i s = .next (s.finish i.opc (execResult i s)) := by
  cases i <;> rfl

/-- The round counts of R180, by key length. -/
theorem dealRounds_eq_some {L nr : Nat} (h : dealRounds L = some nr) : (L, nr) ∈ [(16, 6), (24, 8), (32, 12)] := by
  unfold dealRounds at h
  split at h <;> cases h <;> decide

/-- A DEAL schedule that is made has NR round keys (R181, R183). -/
theorem dealKeySchedule_length {MK : List Byte} {rk : List Block64} (h : dealKeySchedule MK = .ok rk) :
    dealRounds MK.length = some rk.length := by
  unfold dealKeySchedule at h
  split at h
  · cases h
  · next nr hnr => cases h; simp [hnr]

/-- The key operand has KEYLEN bytes where KEYBUF holds that many (R86). -/
theorem State.keyOperand_length {s : State} (h : s.cfgKeylen ≤ 32) : s.keyOperand.length = s.cfgKeylen := by
  simp [State.keyOperand, bytesOf, h]

/-- The checks of ENCRYPT and DECRYPT pass exactly with a block of the right length and a stored schedule (R232). -/
theorem cipherCheck_eq_ok {s : State} {a : Alg} :
    cipherCheck s = .ok a ↔ s.cfgDlen = blockSize s.cfgAlg ∧ s.keyValid s.cfgAlg = true ∧ a = s.cfgAlg := by
  unfold cipherCheck
  split_ifs with hd hk
  · simp [hd]
  · simp [hk]
  · simp [not_not.mp hd, hk, eq_comm]

/-- The checks of MODE_ENC and MODE_DEC pass exactly in a session with a block of the right length and a stored schedule
(R235). -/
theorem sessionCheck_eq_ok {s : State} {a : Alg} :
    sessionCheck s = .ok a ↔
      s.sess = true ∧ s.cfgDlen = blockSize s.salg ∧ s.keyValid s.salg = true ∧ a = s.salg := by
  unfold sessionCheck
  split_ifs with hs hd hk
  · simp [hs]
  · simp [hd]
  · simp [hk]
  · simp [hs, not_not.mp hd, hk, eq_comm]

/-- What each command's execution can leave when it does not fail (R230 to R238): one constructor per command, and one
per algorithm for SETKEY. -/
inductive Effect (s : State) : Instr → State → Prop where
  | nop : Effect s .nop s
  | setkeyDes (rk : DesSchedule) (halg : s.cfgAlg = .des) (hlen : s.cfgKeylen = 8) (hrk : desKeySchedule s.keyOperand = .ok rk) :
      Effect s .setkey { s with rkDes := rk, kvd := true }
  | setkeyDeal (nr : Nat) (rk : List Block64) (halg : s.cfgAlg = .deal) (hlen : dealRounds s.cfgKeylen = some nr)
      (hrk : dealKeySchedule s.keyOperand = .ok rk) :
      Effect s .setkey { s with rkDeal := rk, nrDeal := nr, dnr := BitVec.ofNat 4 nr, kvl := true }
  | encrypt (a : Alg) (hok : cipherCheck s = .ok a) :
      Effect s .encrypt { s with doutbuf := s.cipherEnc a s.dinbuf, dealInnerRk := s.innerAfter a .enc }
  | decrypt (a : Alg) (hok : cipherCheck s = .ok a) :
      Effect s .decrypt { s with doutbuf := s.cipherDec a s.dinbuf, dealInnerRk := s.innerAfter a .dec }
  | modeInit (m : Mode) (hm : modeOfBits s.cfgMode = some m) (hiv : m = .ecb ∨ s.cfgIvlen = blockSize s.cfgAlg) :
      Effect s .modeInit (s.openSession m)
  | modeEnc (a : Alg) (hok : sessionCheck s = .ok a) :
      Effect s .modeEnc
        { s with
          doutbuf := (s.sessionChain .enc a).Y, cvbuf := (s.sessionChain .enc a).CV
          dealInnerRk := s.innerAfter a (cipherDir .enc s.smode) }
  | modeDec (a : Alg) (hok : sessionCheck s = .ok a) :
      Effect s .modeDec
        { s with
          doutbuf := (s.sessionChain .dec a).Y, cvbuf := (s.sessionChain .dec a).CV
          dealInnerRk := s.innerAfter a (cipherDir .dec s.smode) }
  | modeClear : Effect s .modeClear s.closeSession
  | softreset : Effect s .softreset s.resetCore

/-- SETKEY stores a schedule of the configured algorithm, made from a key of a legal length (R231). -/
theorem effect_of_setkeyResult {s s' : State} (h : setkeyResult s = .ok s') : Effect s .setkey s' := by
  unfold setkeyResult at h
  split at h
  · next halg =>
    split at h
    · cases h
    · next hlen =>
      split at h
      · next rk hrk => cases h; exact .setkeyDes rk halg (not_not.mp hlen) hrk
      · cases h
  · next halg =>
    split at h
    · cases h
    · next nr hlen =>
      split at h
      · next rk hrk => cases h; exact .setkeyDeal nr rk halg hlen hrk
      · cases h

/-- MODE_INIT opens a session in a mode that exists, with an IV of the right length unless it is ECB (R234). -/
theorem effect_of_modeInitResult {s s' : State} (h : modeInitResult s = .ok s') : Effect s .modeInit s' := by
  unfold modeInitResult at h
  split at h
  · cases h
  · next m hm =>
    split at h
    · cases h
    · next hiv => cases h; exact .modeInit m hm (by tauto)

/-- A block command of a session runs on the session's algorithm once its checks pass (R235, R236). -/
theorem modeBlockResult_eq_ok {d : Dir} {s s' : State} (h : modeBlockResult d s = .ok s') :
    ∃ a, sessionCheck s = .ok a ∧
      s' = { s with
              doutbuf := (s.sessionChain d a).Y, cvbuf := (s.sessionChain d a).CV
              dealInnerRk := s.innerAfter a (cipherDir d s.smode) } := by
  unfold modeBlockResult at h
  split at h
  · cases h
  · next a hok => cases h; exact ⟨a, hok, rfl⟩

/-- A command whose execution does not fail leaves its effect. -/
theorem effect_of_execResult {i : Instr} {s s' : State} (h : execResult i s = .ok s') : Effect s i s' := by
  cases i with
  | nop => cases h; exact .nop
  | setkey => exact effect_of_setkeyResult h
  | encrypt =>
    simp only [execResult, encryptResult] at h
    split at h
    · cases h
    · next a hok => cases h; exact .encrypt a hok
  | decrypt =>
    simp only [execResult, decryptResult] at h
    split at h
    · cases h
    · next a hok => cases h; exact .decrypt a hok
  | modeInit => exact effect_of_modeInitResult h
  | modeEnc => obtain ⟨a, hok, rfl⟩ := modeBlockResult_eq_ok h; exact .modeEnc a hok
  | modeDec => obtain ⟨a, hok, rfl⟩ := modeBlockResult_eq_ok h; exact .modeDec a hok
  | modeClear => cases h; exact .modeClear
  | softreset => cases h; exact .softreset

/-- What a command word leaves: the effect of the command it encodes, completed with OK, or the state as it was, completed
with an error (R303, R305). -/
theorem runWord_next_cases {c : Word} {s t : State} (h : runWord c s = .next t) :
    (∃ i s', c = encode i ∧ Effect s i s' ∧ t = s'.complete (opcOf c) .ok) ∨ ∃ e, t = s.complete (opcOf c) e := by
  rcases runWord_cases c s with ⟨i, hdec, hrun⟩ | ⟨_, _, hrun⟩
  · obtain rfl := eq_encode_of_decode hdec
    rw [opcOf_encode]
    rw [hrun, exec_eq_finish_execResult] at h
    rcases finish_cases s i.opc (execResult i s) with ⟨s', hr, hfin⟩ | ⟨e, _, hfin⟩
    · rw [hfin] at h
      cases h
      exact .inl ⟨i, s', rfl, effect_of_execResult hr, rfl⟩
    · rw [hfin] at h
      cases h
      exact .inr ⟨e, rfl⟩
  · rw [hrun] at h
    cases h
    exact .inr ⟨_, rfl⟩

/-- What a step leaves: the core idles, or runs the pending word, or the host's transaction is performed, or the reset
pin takes a level (R66, R303, R330). -/
theorem step_next_cases {s t : State} (h : step s = .next t) :
    (∃ rest, s.coreNext = some rest ∧ (s.pending = none ∨ s.rst = true) ∧ t = { s with inputs := rest }) ∨
      (∃ rest c, s.coreNext = some rest ∧ s.pending = some c ∧ s.rst = false ∧
        runWord c { s with inputs := rest } = .next t) ∨
      (∃ x rest, s.inputs = .host x :: rest ∧ t = State.transact { s with inputs := rest } x) ∨
      (∃ l rest, s.inputs = .pin l :: rest ∧ t = State.setPin { s with inputs := rest } l) := by
  rcases step_cases s with ⟨rest, hnext, hstep⟩ | ⟨x, rest, hin, hstep⟩ | ⟨l, rest, hin, hstep⟩
  · rw [hstep] at h
    rcases coreTurn_cases { s with inputs := rest } with ⟨hidle, hturn⟩ | ⟨c, hp, hr, hturn⟩
    · rw [hturn] at h
      cases h
      exact .inl ⟨rest, hnext, hidle, rfl⟩
    · exact .inr (.inl ⟨rest, c, hnext, hp, hr, hturn.symm.trans h⟩)
  · rw [hstep] at h
    cases h
    exact .inr (.inr (.inl ⟨x, rest, hin, rfl⟩))
  · rw [hstep] at h
    cases h
    exact .inr (.inr (.inr ⟨l, rest, hin, rfl⟩))

/-! ### What a host transaction and the reset pin can do -/

/-- While `rst` is asserted a write has no effect (R330). -/
theorem transact_write_of_reset {s : State} (idx : Idx) (v : Word) (hr : s.rst = true) : s.transact (.write idx v) = s := by
  simp [State.transact, hr]

/-- While `rst` is released a write writes the register word of its index (R63). -/
theorem transact_write_of_released {s : State} (idx : Idx) (v : Word) (hr : s.rst = false) :
    s.transact (.write idx v) = s.writeReg (regOf idx) v := by
  simp [State.transact, hr, State.hostWrite]

/-- What a register write can do: CTRL takes IE, STATUS clears flags, a pending command turns a write away, CMD accepts a
command, CFG and the writable buffers take their word, and the other words keep their value (R63, R302, R340). -/
theorem writeReg_cases (s : State) (r : Reg) (v : Word) :
    (∃ ie, s.writeReg r v = { s with ie := ie }) ∨
      (r = .status ∧ s.writeReg r v = s.writeStatus v) ∨
      (s.busy = true ∧ s.writeReg r v = { s with haz := true }) ∨
      (s.busy = false ∧ r = .cmd ∧ s.writeReg r v = s.accept v) ∨
      (s.busy = false ∧ ∃ cfg key din iv delta, s.writeReg r v =
        { s with cfg := cfg, keybuf := key, dinbuf := din, ivbuf := iv, deltabuf := delta }) := by
  cases r with
  | ctrl => exact .inl ⟨_, rfl⟩
  | dout | cv | reserved => exact .inl ⟨s.ie, rfl⟩
  | status => exact .inr (.inl ⟨rfl, rfl⟩)
  | cmd =>
    rcases Bool.eq_false_or_eq_true s.busy with hb | hb
    · exact .inr (.inr (.inl ⟨hb, unlessBusy_of_busy _ _ hb⟩))
    · exact .inr (.inr (.inr (.inl ⟨hb, rfl, unlessBusy_of_idle _ _ hb⟩)))
  | cfg | key | din | iv | delta =>
    rcases Bool.eq_false_or_eq_true s.busy with hb | hb
    · exact .inr (.inr (.inl ⟨hb, unlessBusy_of_busy _ _ hb⟩))
    · exact .inr (.inr (.inr (.inr ⟨hb, _, _, _, _, _, unlessBusy_of_idle _ _ hb⟩)))

/-- What a host transaction can do: IE or the word returned to the host changes, or one of the register writes above takes
place while `rst` is released (R60, R63, R330). -/
theorem transact_cases (s : State) (x : Transaction) :
    (∃ ie rd, s.transact x = { s with ie := ie, readData := rd }) ∨
      (∃ v, x = .write 0x03#6 v ∧ s.rst = false ∧ s.transact x = s.writeStatus v) ∨
      (s.busy = true ∧ s.transact x = { s with haz := true }) ∨
      (∃ v, s.busy = false ∧ x = .write 0x02#6 v ∧ s.transact x = s.accept v) ∨
      (s.busy = false ∧ ∃ cfg key din iv delta, s.transact x =
        { s with cfg := cfg, keybuf := key, dinbuf := din, ivbuf := iv, deltabuf := delta }) := by
  cases x with
  | read idx => exact .inl ⟨s.ie, _, rfl⟩
  | write idx v =>
    rcases Bool.eq_false_or_eq_true s.rst with hr | hr
    · exact .inl ⟨s.ie, s.readData, transact_write_of_reset idx v hr⟩
    · rw [transact_write_of_released idx v hr]
      have hidx {r : Reg} (h : regOf idx = r) : idx = idxOf r := by rw [← h, idxOf_regOf]
      rcases writeReg_cases s (regOf idx) v with ⟨ie, h⟩ | ⟨hreg, h⟩ | hbusy | ⟨hidle, hreg, h⟩ | hidle
      · exact .inl ⟨ie, s.readData, h⟩
      · exact .inr (.inl ⟨v, by rw [hidx hreg]; rfl, hr, h⟩)
      · exact .inr (.inr (.inl hbusy))
      · exact .inr (.inr (.inr (.inl ⟨v, hidle, by rw [hidx hreg]; rfl, h⟩)))
      · exact .inr (.inr (.inr (.inr hidle)))

/-- Two states agree on what only the core and a reset write: DOUTBUF, the key stores with their flags, the hidden
schedule and the session. -/
structure SameCore (s t : State) : Prop where
  doutbuf : t.doutbuf = s.doutbuf
  kvd : t.kvd = s.kvd
  rkDes : t.rkDes = s.rkDes
  kvl : t.kvl = s.kvl
  dnr : t.dnr = s.dnr
  rkDeal : t.rkDeal = s.rkDeal
  nrDeal : t.nrDeal = s.nrDeal
  dealInnerRk : t.dealInnerRk = s.dealInnerRk
  sess : t.sess = s.sess
  salg : t.salg = s.salg
  smode : t.smode = s.smode
  cvbuf : t.cvbuf = s.cvbuf
  sDelta : t.sDelta = s.sDelta

/-- A host transaction writes none of it (R63). -/
theorem transact_sameCore (s : State) (x : Transaction) : SameCore s (s.transact x) := by
  rcases transact_cases s x with ⟨_, _, h⟩ | ⟨_, _, _, h⟩ | ⟨_, h⟩ | ⟨_, _, _, h⟩ | ⟨_, _, _, _, _, _, h⟩ <;> rw [h]
  all_goals constructor <;> rfl

/-- What a level of the reset pin does: every state element takes its reset value, unless a released pin is released
again (R330, R331). -/
theorem setPin_cases (s : State) (l : Bool) :
    s.setPin l = { s.resetCore with rst := l } ∨ (l = false ∧ s.rst = false ∧ s.setPin l = s) := by
  cases l
  · cases hr : s.rst
    · exact .inr ⟨rfl, rfl, by simp [State.setPin, hr]⟩
    · exact .inl (by simp [State.setPin, hr])
  · exact .inl rfl

/-! ### What changes a flag, a key store or DOUTBUF -/

/-- Every command but SOFTRESET keeps IE and HAZ (R22, R26). -/
theorem Effect.ie_haz {s s' : State} {i : Instr} (h : Effect s i s') (hi : i ≠ .softreset) :
    s'.ie = s.ie ∧ s'.haz = s.haz := by
  cases h with
  | softreset => exact absurd rfl hi
  | nop | setkeyDes | setkeyDeal | encrypt | decrypt | modeInit | modeEnc | modeDec | modeClear => exact ⟨rfl, rfl⟩

/-- A command that changes the DES store or KVD is SETKEY of DES with an 8-byte key, or SOFTRESET (R34). -/
theorem Effect.desStore {s s' : State} {i : Instr} (h : Effect s i s') (hne : s'.rkDes ≠ s.rkDes ∨ s'.kvd ≠ s.kvd) :
    i = .softreset ∨ (i = .setkey ∧ s.cfgAlg = .des ∧ s.cfgKeylen = 8) := by
  cases h with
  | softreset => exact .inl rfl
  | setkeyDes rk halg hlen => exact .inr ⟨rfl, halg, hlen⟩
  | nop | setkeyDeal | encrypt | decrypt | modeInit | modeEnc | modeDec | modeClear => simp at hne

/-- A command that changes the DEAL store, its count, KVL or DNR is SETKEY of DEAL with a key of a legal length, or
SOFTRESET (R35). -/
theorem Effect.dealStore {s s' : State} {i : Instr} (h : Effect s i s')
    (hne : s'.rkDeal ≠ s.rkDeal ∨ s'.nrDeal ≠ s.nrDeal ∨ s'.kvl ≠ s.kvl ∨ s'.dnr ≠ s.dnr) :
    i = .softreset ∨ (i = .setkey ∧ s.cfgAlg = .deal ∧ s.cfgKeylen ∈ [16, 24, 32]) := by
  cases h with
  | softreset => exact .inl rfl
  | setkeyDeal nr rk halg hlen =>
    refine .inr ⟨rfl, halg, ?_⟩
    exact List.mem_map_of_mem (f := Prod.fst) (dealRounds_eq_some hlen)
  | nop | setkeyDes | encrypt | decrypt | modeInit | modeEnc | modeDec | modeClear => simp at hne

/-- A command that changes DOUTBUF is a block command or SOFTRESET (R30). -/
theorem Effect.doutbuf {s s' : State} {i : Instr} (h : Effect s i s') (hne : s'.doutbuf ≠ s.doutbuf) :
    i ∈ [.softreset, .encrypt, .decrypt, .modeEnc, .modeDec] := by
  cases h with
  | softreset | encrypt | decrypt | modeEnc | modeDec => decide
  | nop | setkeyDes | setkeyDeal | modeInit | modeClear => exact absurd rfl hne

/-- A host transaction that clears HAZ is a STATUS write of bit 2 while `rst` is released (R27). -/
theorem transact_clears_haz {s : State} {x : Transaction} (hset : s.haz = true) (hclear : (s.transact x).haz = false) :
    ∃ v, x = .write 0x03#6 v ∧ v.getLsbD 2 = true ∧ s.rst = false := by
  rcases transact_cases s x with ⟨_, _, h⟩ | ⟨v, rfl, hr, h⟩ | ⟨_, h⟩ | ⟨_, _, _, h⟩ | ⟨_, _, _, _, _, _, h⟩ <;>
    rw [h] at hclear
  case inr.inl =>
    refine ⟨v, rfl, ?_, hr⟩
    rw [State.writeStatus_haz, hset] at hclear
    simpa using hclear
  case inr.inr.inl => cases hclear
  all_goals exact absurd (hset.symm.trans hclear) (by decide)

/-- Where a change of what only the core and a reset write comes from: a change of the reset pin, or the effect of the
pending command, which completed with OK. -/
theorem step_change_cases {s t : State} (h : step s = .next t) :
    SameCore s t ∨ (∃ l rest, s.inputs = .pin l :: rest) ∨
      ∃ rest i s', s.coreNext.isSome = true ∧ s.rst = false ∧ s.pending = some (encode i) ∧
        Effect { s with inputs := rest } i s' ∧ t = s'.complete i.opc .ok := by
  rcases step_next_cases h with ⟨rest, -, -, rfl⟩ | ⟨rest, c, hnext, hp, hr, hrun⟩ | ⟨x, rest, hin, rfl⟩ | ⟨l, rest, hin, -⟩
  · exact .inl (by constructor <;> rfl)
  · rcases runWord_next_cases hrun with ⟨i, s', rfl, heffect, rfl⟩ | ⟨e, rfl⟩
    · exact .inr (.inr ⟨rest, i, s', by rw [hnext]; rfl, hr, hp, heffect, by rw [opcOf_encode]⟩)
    · exact .inl (by constructor <;> rfl)
  · obtain ⟨⟩ := transact_sameCore { s with inputs := rest } x
    exact .inl (by constructor <;> assumption)
  · exact .inr (.inl ⟨l, rest, hin⟩)

/-- The interrupt line of a core that has just completed is IE (R41). -/
theorem irq_of_done {s : State} (h : s.done = true) : s.irq = s.ie := by
  rw [State.irq, h, Bool.and_true]

/-- The interrupt line of a core whose DONE is clear is low (R41). -/
theorem irq_of_not_done {s : State} (h : s.done = false) : s.irq = false := by
  rw [State.irq, h, Bool.and_false]

/-- Every completion of a command word sets DONE (R303). -/
theorem runWord_done {c : Word} {s t : State} (h : runWord c s = .next t) : t.done = true := by
  rcases runWord_next_cases h with ⟨_, _, _, _, rfl⟩ | ⟨_, rfl⟩ <;> rfl

/-- Every command word but SOFTRESET keeps IE (R22). -/
theorem runWord_ie {c : Word} {s t : State} (h : runWord c s = .next t) (hc : c ≠ encode .softreset) : t.ie = s.ie := by
  rcases runWord_next_cases h with ⟨i, s', rfl, heffect, rfl⟩ | ⟨e, rfl⟩
  · have hi : i ≠ .softreset := by rintro rfl; exact hc rfl
    exact (heffect.ie_haz hi).1
  · rfl

/-- SOFTRESET clears IE (R238). -/
theorem runWord_softreset_ie {s t : State} (h : runWord (encode .softreset) s = .next t) : t.ie = false := by
  have hrun : runWord (encode .softreset) s = .next (s.finish 0x20#8 (.ok s.resetCore)) := rfl
  rw [hrun] at h
  cases h
  rfl

/-! ### The register words as their fields -/

/-- STATUS read by its index is the assembled word (R64). -/
theorem hostRead_status (s : State) : s.hostRead 0x03#6 = s.statusWord := hostRead_idxOf s .status

/-- CFG read by its index is its stored bits under zeros (R64). -/
theorem hostRead_cfg (s : State) : s.hostRead 0x01#6 = s.cfgWord := hostRead_idxOf s .cfg

/-- CTRL read by its index is IE under zeros (R64). -/
theorem hostRead_ctrl (s : State) : s.hostRead 0x00#6 = s.ctrlWord := hostRead_idxOf s .ctrl

/-- The one-bit fields and the single reserved bits of STATUS, by position (R26). -/
theorem statusWord_bits (s : State) :
    s.statusWord.getLsbD 0 = s.busy ∧ s.statusWord.getLsbD 1 = s.done ∧ s.statusWord.getLsbD 2 = s.haz ∧
      s.statusWord.getLsbD 3 = false ∧ s.statusWord.getLsbD 8 = s.kvd ∧ s.statusWord.getLsbD 9 = s.kvl ∧
      s.statusWord.getLsbD 10 = s.sess ∧ s.statusWord.getLsbD 11 = (algBit s.salg).getLsbD 0 ∧
      s.statusWord.getLsbD 15 = false := by
  simp only [State.statusWord, BitVec.getLsbD_append]
  simp

/-- The wider fields of STATUS, by position (R26). -/
theorem statusWord_fields (s : State) :
    s.statusWord.extractLsb' 4 4 = errBits s.err ∧ s.statusWord.extractLsb' 12 3 = modeBits s.smode ∧
      s.statusWord.extractLsb' 16 8 = s.ecmd ∧ s.statusWord.extractLsb' 24 4 = s.dnr ∧
      s.statusWord.extractLsb' 28 4 = 0#4 := by
  simp (disch := decide) only [State.statusWord, BitVec.extractLsb'_append_eq_of_le, BitVec.extractLsb'_append_eq_of_add_le]
  simp

/-- Bit i of a word is one exactly when its one-bit field at i is 1. -/
theorem extractLsb'_one_eq_one_iff (v : Word) (i : Nat) : v.extractLsb' i 1 = 1#1 ↔ v.getLsbD i = true := by
  have hbit : v.extractLsb' i 1 = BitVec.ofBool (v.getLsbD i) := by
    apply BitVec.eq_of_getLsbD_eq
    intro j hj
    obtain rfl : j = 0 := by omega
    simp
  rw [hbit]
  cases v.getLsbD i <;> decide

/-- A write to STATUS by its index clears the flags it names (R27, R63). -/
theorem hostWrite_status (s : State) (v : Word) : s.hostWrite 0x03#6 v = s.writeStatus v := hostWrite_idxOf s .status v

/-- A write to CMD on a core that is not busy accepts the command word (R63, R302). -/
theorem hostWrite_cmd {s : State} (c : Word) (hb : s.busy = false) : s.hostWrite 0x02#6 c = s.accept c :=
  (hostWrite_idxOf s .cmd c).trans (unlessBusy_of_idle _ _ hb)

/-- A write to CFG on a core that is not busy stores v[19:0] (R23, R63). -/
theorem hostWrite_cfg {s : State} (v : Word) (hb : s.busy = false) :
    s.hostWrite 0x01#6 v = { s with cfg := v.extractLsb' 0 20 } :=
  (hostWrite_idxOf s .cfg v).trans (unlessBusy_of_idle _ _ hb)

/-- A field within the stored bits of CFG is the field of the word that was written. -/
theorem extractLsb'_of_low20 (v : Word) {start len : Nat} (h : start + len ≤ 20) :
    (v.extractLsb' 0 20).extractLsb' start len = v.extractLsb' start len := by
  apply BitVec.eq_of_getLsbD_eq
  intro i hi
  have hlow : start + i < 20 := by omega
  simp [hi, hlow]

/-- The stored bits of CFG under zeros are the word that was written, masked (R23, R64). -/
theorem append_low20 (v : Word) : 0#12 ++ v.extractLsb' 0 20 = v &&& 0x000FFFFF#32 := by
  have hmask (i : Nat) (hi : i < 32) : (0x000FFFFF#32).getLsbD i = decide (i < 20) := by
    revert i
    decide
  apply BitVec.eq_of_getLsbD_eq
  intro i hi
  rw [BitVec.getLsbD_append, BitVec.getLsbD_and, hmask i hi]
  by_cases h : i < 20 <;> simp [h]

/-! ### The hidden schedule of DEAL's own DES (R36, R188) -/

/-- The state with another hidden schedule, and nothing else changed. -/
def State.withInner (s : State) (v : DesSchedule) : State := { s with dealInnerRk := v }

/-- No register word shows the hidden schedule (R64). -/
theorem readReg_withInner (s : State) (v : DesSchedule) (r : Reg) : (s.withInner v).readReg r = s.readReg r := by
  cases r <;> rfl

/-- No register write uses or changes the hidden schedule (R63). -/
theorem writeReg_withInner (s : State) (v : DesSchedule) (r : Reg) (x : Word) :
    (s.withInner v).writeReg r x = (s.writeReg r x).withInner v := by
  cases r with
  | ctrl | status | dout | cv | reserved => rfl
  | cfg | cmd | key | din | iv | delta =>
    have hbusy : (s.withInner v).busy = s.busy := rfl
    simp only [State.writeReg, State.unlessBusy, hbusy]
    split <;> rfl

/-- No host transaction uses or changes the hidden schedule. -/
theorem transact_withInner (s : State) (v : DesSchedule) (x : Transaction) :
    (s.withInner v).transact x = (s.transact x).withInner v := by
  cases x with
  | read idx =>
    have hread : (s.withInner v).hostRead idx = s.hostRead idx := readReg_withInner s v (regOf idx)
    simp only [State.transact, hread]
    rfl
  | write idx x =>
    have hwrite : (s.withInner v).hostWrite idx x = (s.hostWrite idx x).withInner v := writeReg_withInner s v (regOf idx) x
    have hrst : (s.withInner v).rst = s.rst := rfl
    simp only [State.transact, hwrite, hrst]
    split <;> rfl

/-- SETKEY keeps the hidden schedule and does not use it. -/
theorem setkeyResult_withInner (s : State) (v : DesSchedule) :
    setkeyResult (s.withInner v) = (setkeyResult s).map (·.withInner v) := by
  have halg : (s.withInner v).cfgAlg = s.cfgAlg := rfl
  have hlen : (s.withInner v).cfgKeylen = s.cfgKeylen := rfl
  have hkey : (s.withInner v).keyOperand = s.keyOperand := rfl
  unfold setkeyResult
  rw [halg, hlen, hkey]
  cases s.cfgAlg with
  | des =>
    dsimp only
    split
    · rfl
    · cases desKeySchedule s.keyOperand <;> rfl
  | deal =>
    cases dealRounds s.cfgKeylen with
    | none => rfl
    | some nr => cases dealKeySchedule s.keyOperand <;> rfl

/-- MODE_INIT keeps the hidden schedule and does not use it. -/
theorem modeInitResult_withInner (s : State) (v : DesSchedule) :
    modeInitResult (s.withInner v) = (modeInitResult s).map (·.withInner v) := by
  have hmode : (s.withInner v).cfgMode = s.cfgMode := rfl
  have halg : (s.withInner v).cfgAlg = s.cfgAlg := rfl
  have hlen : (s.withInner v).cfgIvlen = s.cfgIvlen := rfl
  unfold modeInitResult
  rw [hmode, halg, hlen]
  cases modeOfBits s.cfgMode with
  | none => rfl
  | some m => dsimp only; split <;> rfl

/-- A command from two states that differ in the hidden schedule alone gives the same error, or two states that differ in
it alone. -/
theorem execResult_withInner (i : Instr) (s : State) (v : DesSchedule) :
    ∃ w, execResult i (s.withInner v) = (execResult i s).map (·.withInner w) := by
  have hcipher : cipherCheck (s.withInner v) = cipherCheck s := rfl
  have hsession : sessionCheck (s.withInner v) = sessionCheck s := rfl
  cases i with
  | nop | modeClear => exact ⟨v, rfl⟩
  | softreset => exact ⟨s.resetCore.dealInnerRk, rfl⟩
  | setkey => exact ⟨v, setkeyResult_withInner s v⟩
  | modeInit => exact ⟨v, modeInitResult_withInner s v⟩
  | encrypt | decrypt =>
    simp only [execResult, encryptResult, decryptResult, hcipher]
    cases cipherCheck s with
    | error e => exact ⟨v, rfl⟩
    | ok a => exact ⟨(s.withInner v).innerAfter a _, rfl⟩
  | modeEnc | modeDec =>
    simp only [execResult, modeBlockResult, hsession]
    cases sessionCheck s with
    | error e => exact ⟨v, rfl⟩
    | ok a => exact ⟨(s.withInner v).innerAfter a _, by cases a <;> rfl⟩

/-- Completion does not look at the hidden schedule. -/
theorem finish_withInner (s : State) (v w : DesSchedule) (op : BitVec 8) (r : Except ErrCode State) :
    ∃ u, (s.withInner v).finish op (r.map (·.withInner w)) = (s.finish op r).withInner u := by
  cases r with
  | ok s' => exact ⟨w, rfl⟩
  | error e => exact ⟨v, rfl⟩

/-- No completion of a command word shows the hidden schedule in anything but the hidden schedule. -/
theorem runWord_withInner {c : Word} {s t : State} (v : DesSchedule) (h : runWord c s = .next t) :
    ∃ w, runWord c (s.withInner v) = .next (t.withInner w) := by
  unfold runWord at h ⊢
  cases hdec : decode c with
  | error e => rw [hdec] at h; cases h; exact ⟨v, rfl⟩
  | ok i =>
    simp only [hdec, exec_eq_finish_execResult] at h ⊢
    cases h
    obtain ⟨w, hw⟩ := execResult_withInner i s v
    obtain ⟨u, hu⟩ := finish_withInner s v w i.opc (execResult i s)
    exact ⟨u, by rw [hw, hu]⟩

/-- No turn of the core shows it either. -/
theorem coreTurn_withInner {s t : State} (v : DesSchedule) (h : coreTurn s = .next t) :
    ∃ w, coreTurn (s.withInner v) = .next (t.withInner w) := by
  rcases coreTurn_cases s with ⟨hidle, hturn⟩ | ⟨c, hp, hr, hturn⟩
  · rw [hturn] at h
    cases h
    rcases coreTurn_cases (s.withInner v) with ⟨-, hturn'⟩ | ⟨c, hp, hr, -⟩
    · exact ⟨v, hturn'⟩
    · rcases hidle with hnone | hrst
      · cases hnone.symm.trans hp
      · cases hrst.symm.trans hr
  · rw [coreTurn_of_pending (s := s.withInner v) hp hr]
    exact runWord_withInner v (hturn.symm.trans h)

/-- A level of the reset pin from two states that differ in the hidden schedule alone leaves two such states. -/
theorem setPin_withInner (s : State) (v : DesSchedule) (l : Bool) :
    ∃ w, (s.withInner v).setPin l = (s.setPin l).withInner w := by
  have hrst : (s.withInner v).rst = s.rst := rfl
  have hcore : (s.withInner v).resetCore = s.resetCore := rfl
  unfold State.setPin
  rw [hrst, hcore]
  split
  · exact ⟨s.resetCore.dealInnerRk, rfl⟩
  · split
    · exact ⟨s.resetCore.dealInnerRk, rfl⟩
    · exact ⟨v, rfl⟩

/-- A step from two states that differ in the hidden schedule alone gives two states that differ in it alone. -/
theorem step_withInner {s t : State} (v : DesSchedule) (h : step s = .next t) :
    ∃ w, step (s.withInner v) = .next (t.withInner w) := by
  unfold step move at h ⊢
  have hin : (s.withInner v).inputs = s.inputs := rfl
  rw [hin]
  cases hi : s.inputs with
  | nil => rw [hi] at h; exact coreTurn_withInner v h
  | cons x rest =>
    rw [hi] at h
    cases x with
    | core => exact coreTurn_withInner (s := { s with inputs := rest }) v h
    | host x =>
      cases h
      exact ⟨v, congrArg _ (transact_withInner { s with inputs := rest } v x)⟩
    | pin l =>
      cases h
      obtain ⟨w, hw⟩ := setPin_withInner { s with inputs := rest } v l
      exact ⟨w, congrArg _ hw⟩

/-- Settles O23: reads, the interrupt and every step commute with a change of the hidden schedule. -/
theorem innerScheduleIsUnobservable : Obligations.InnerScheduleIsUnobservable := by
  unfold Obligations.InnerScheduleIsUnobservable
  intro s v
  refine ⟨fun idx => readReg_withInner s v (regOf idx), rfl, fun t h => ?_⟩
  exact step_withInner v h

/-! ### The state invariants (R44) -/

/-- Byte j of an 8-byte string with zero fill is zero from byte 8 on (R202). -/
theorem byteAt_zeroFill (b : Block64) {j : Nat} (h8 : 8 ≤ j) : byteAt (zeroFill b) j = 0x00#8 := by
  apply BitVec.eq_of_getLsbD_eq
  intro i hi
  have happend (k : Nat) : (zeroFill b).getLsbD k = if k < 64 then (0#64).getLsbD k else b.getLsbD (k - 64) :=
    BitVec.getLsbD_append
  have hlow : 128 - 8 * (j + 1) + i < 64 := by omega
  simp [byteAt, happend, hlow]

/-- The invariant of the DEAL store, from the count of the schedule that is stored (R35, R44). -/
theorem State.dealStoreInv_of_stored {s : State} {nr : Nat} (hnr : nr = 6 ∨ nr = 8 ∨ nr = 12) (hkvl : s.kvl = true)
    (hdnr : s.dnr = BitVec.ofNat 4 nr) (hcount : s.nrDeal = nr) (hlen : s.rkDeal.length = nr) : s.DealStoreInv := by
  unfold State.DealStoreInv
  rw [hkvl, hdnr, hcount, hlen]
  rcases hnr with rfl | rfl | rfl <;> decide

/-- The DEAL store of a reset state: nothing is stored, whatever the free contents are (R43, R44). -/
theorem resetCore_dealStoreInv (s : State) : s.resetCore.DealStoreInv := by
  unfold State.DealStoreInv
  simp

/-- SETKEY under DEAL stores as many round keys as it reports (R181, R231). -/
theorem setkeyDeal_count {s : State} {nr : Nat} {rk : List Block64} (hlen : dealRounds s.cfgKeylen = some nr)
    (hrk : dealKeySchedule s.keyOperand = .ok rk) : (nr = 6 ∨ nr = 8 ∨ nr = 12) ∧ rk.length = nr := by
  have hmem := dealRounds_eq_some hlen
  simp only [List.mem_cons, Prod.mk.injEq, List.not_mem_nil, or_false] at hmem
  have hkey : s.keyOperand.length = s.cfgKeylen := State.keyOperand_length (by omega)
  have hrounds := dealKeySchedule_length hrk
  rw [hkey, hlen] at hrounds
  cases hrounds
  exact ⟨by omega, rfl⟩

/-- Every command that does not fail keeps the DEAL store and its flags in agreement. -/
theorem Effect.dealStoreInv {s s' : State} {i : Instr} (h : Effect s i s') (hinv : s.DealStoreInv) : s'.DealStoreInv := by
  cases h with
  | setkeyDeal nr rk halg hlen hrk =>
    obtain ⟨hnr, hcount⟩ := setkeyDeal_count hlen hrk
    exact State.dealStoreInv_of_stored hnr rfl rfl rfl hcount
  | softreset => exact resetCore_dealStoreInv s
  | nop | setkeyDes | encrypt | decrypt | modeInit | modeEnc | modeDec | modeClear => exact hinv

/-- A state with no session open meets the session invariant when the session's fields are clear (R44). -/
theorem State.sessionInv_of_closed {s : State} (hsess : s.sess = false) (halg : s.salg = .des) (hmode : s.smode = .ecb)
    (hcv : s.cvbuf = 0#128) (hdelta : s.sDelta = 0#128) : s.SessionInv :=
  ⟨fun _ => ⟨halg, hmode, hcv, hdelta⟩, fun h => by rw [hsess] at h; cases h.1⟩

/-- A state with a session open meets the session invariant when a DES session's chaining value is zero from byte 8 on
(R44). -/
theorem State.sessionInv_of_open {s : State} (hsess : s.sess = true)
    (hcv : s.salg = .des → ∃ b, s.cvbuf = zeroFill b) : s.SessionInv := by
  refine ⟨fun h => ?_, fun h j h8 _ => ?_⟩
  · rw [hsess] at h
    cases h
  · obtain ⟨b, hb⟩ := hcv h.2
    rw [hb, byteAt_zeroFill b h8]

/-- MODE_INIT latches a chaining value that a DES session may hold (R201). -/
theorem openSession_sessionInv (s : State) (m : Mode) : (s.openSession m).SessionInv := by
  refine State.sessionInv_of_open rfl fun halg => ?_
  rw [State.openSession_salg] at halg
  by_cases hm : m = .ecb
  · exact ⟨0#64, by simp [hm, zeroFill]⟩
  · exact ⟨first8 s.ivbuf, by simp [hm, halg, firstBlock]⟩

/-- A block command of a DES session leaves a chaining value with zero fill (R204). -/
theorem sessionChain_sessionInv {s : State} {a : Alg} (d : Dir) (Y : Block128) (v : DesSchedule)
    (hok : sessionCheck s = .ok a) :
    State.SessionInv { s with doutbuf := Y, cvbuf := (s.sessionChain d a).CV, dealInnerRk := v } := by
  obtain ⟨hsess, -, -, rfl⟩ := sessionCheck_eq_ok.mp hok
  refine State.sessionInv_of_open hsess fun (halg : s.salg = .des) => ?_
  exact ⟨_, by rw [halg]; rfl⟩

/-- Every command that does not fail keeps the session's fields in agreement. -/
theorem Effect.sessionInv {s s' : State} {i : Instr} (h : Effect s i s') (hinv : s.SessionInv) : s'.SessionInv := by
  cases h with
  | modeInit m => exact openSession_sessionInv s m
  | modeEnc a hok => exact sessionChain_sessionInv .enc _ _ hok
  | modeDec a hok => exact sessionChain_sessionInv .dec _ _ hok
  | modeClear | softreset => exact State.sessionInv_of_closed rfl rfl rfl rfl rfl
  | nop | setkeyDes | setkeyDeal | encrypt | decrypt => exact hinv

/-- The DEAL store and the session of states that agree on them meet the invariants together. -/
theorem SameCore.storeInvs {s t : State} (h : SameCore s t) (hinv : s.DealStoreInv ∧ s.SessionInv) :
    t.DealStoreInv ∧ t.SessionInv := by
  unfold State.DealStoreInv State.SessionInv
  rw [h.kvl, h.dnr, h.rkDeal, h.nrDeal, h.sess, h.salg, h.smode, h.cvbuf, h.sDelta]
  exact hinv

/-- A host transaction keeps BUSY and the pending word in agreement: only an acceptance touches them (R302). -/
theorem transact_pendingInv {s : State} (x : Transaction) (hinv : s.PendingInv) : (s.transact x).PendingInv := by
  rcases transact_cases s x with ⟨_, _, h⟩ | ⟨_, _, _, h⟩ | ⟨_, h⟩ | ⟨_, _, _, h⟩ | ⟨_, _, _, _, _, _, h⟩ <;> rw [h]
  case inr.inr.inr.inl => rfl
  all_goals exact hinv

/-- Every host transaction keeps the state invariants. -/
theorem transact_inv {s : State} (x : Transaction) (hinv : s.Inv) : (s.transact x).Inv :=
  ⟨transact_pendingInv x hinv.1, (transact_sameCore s x).storeInvs hinv.2⟩

/-- Every completion of a command word keeps the state invariants; it meets that of BUSY whatever the word was. -/
theorem runWord_inv {c : Word} {s t : State} (h : runWord c s = .next t) (hinv : s.Inv) : t.Inv := by
  obtain ⟨-, hdeal, hsession⟩ := hinv
  rcases runWord_next_cases h with ⟨i, s', -, heffect, rfl⟩ | ⟨e, rfl⟩
  · exact ⟨rfl, heffect.dealStoreInv hdeal, heffect.sessionInv hsession⟩
  · exact ⟨rfl, hdeal, hsession⟩

/-- What a reset leaves meets the state invariants (R43). -/
theorem resetCore_inv (s : State) : s.resetCore.Inv :=
  ⟨rfl, resetCore_dealStoreInv s, State.sessionInv_of_closed rfl rfl rfl rfl rfl⟩

/-- A level of the reset pin keeps the state invariants. -/
theorem setPin_inv {s : State} (l : Bool) (hinv : s.Inv) : (s.setPin l).Inv := by
  rcases setPin_cases s l with h | ⟨-, -, h⟩ <;> rw [h]
  · exact resetCore_inv s
  · exact hinv

/-- Settles O44: the core's turn, a host transaction and the reset pin each keep the invariants. -/
theorem stepKeepsTheStateInvariants : Obligations.StepKeepsTheStateInvariants := by
  unfold Obligations.StepKeepsTheStateInvariants
  intro s t hinv h
  rcases step_next_cases h with ⟨rest, -, -, rfl⟩ | ⟨rest, c, -, -, -, hrun⟩ | ⟨x, rest, -, rfl⟩ | ⟨l, rest, -, rfl⟩
  · exact hinv
  · exact runWord_inv hrun hinv
  · exact transact_inv x hinv
  · exact setPin_inv l hinv

/-! ### The registers, the flags and the stores -/

/-- Settles O5: each operand is the field of the stored word. -/
theorem cfgWriteSetsTheOperandFields : Obligations.CfgWriteSetsTheOperandFields := by
  unfold Obligations.CfgWriteSetsTheOperandFields
  intro s v hb
  dsimp only
  rw [hostWrite_cfg v hb, hostRead_cfg]
  simp (disch := decide) only [State.cfgAlg, State.cfgMode, State.cfgKeylen, State.cfgIvlen, State.cfgDlen,
    extractLsb'_of_low20, true_and]
  refine ⟨?_, append_low20 v⟩
  rw [← extractLsb'_one_eq_one_iff]
  rcases BitVec.eq_zero_or_eq_one (v.extractLsb' 0 1) with h | h <;> rw [h] <;> decide

/-- Settles O14: a host transaction while BUSY = 1 changes at most IE, DONE, HAZ and the word read. -/
theorem operandsHoldWhilePending : Obligations.OperandsHoldWhilePending := by
  unfold Obligations.OperandsHoldWhilePending
  intro s t x rest hb hin h
  rw [step, move, hin] at h
  cases h
  obtain ⟨ie, done, haz, rd, htransact, -⟩ := transact_while_busy { s with inputs := rest } x hb
  rw [htransact]
  exact ⟨hb, rfl, rfl, rfl, rfl, rfl, rfl, rfl, rfl, rfl, rfl, rfl, rfl, rfl, rfl, rfl, rfl, rfl, rfl, rfl, rfl⟩

/-- Settles O19: every field stands at its position, with its code. -/
theorem statusWordLayout : Obligations.StatusWordLayout := by
  unfold Obligations.StatusWordLayout
  intro s
  dsimp only
  rw [hostRead_status]
  obtain ⟨hbusy, hdone, hhaz, h3, hkvd, hkvl, hsess, hsalg, h15⟩ := statusWord_bits s
  obtain ⟨herr, hsmode, hecmd, hdnr, h28⟩ := statusWord_fields s
  refine ⟨hbusy, hdone, hhaz, h3, ?_, hkvd, hkvl, hsess, ?_, ?_, h15, hecmd, hdnr, h28⟩
  · rw [herr]
    cases s.err <;> rfl
  · rw [hsalg]
    cases s.salg <;> decide
  · rw [hsmode]
    cases s.smode <;> rfl

/-- Settles O21: a host write of STATUS, SOFTRESET and the pin are the only moves that clear HAZ. -/
theorem hazardFlagIsSticky : Obligations.HazardFlagIsSticky := by
  unfold Obligations.HazardFlagIsSticky
  intro s t h hset hclear
  have hdiff {u : State} (hu : u.haz = s.haz) : u.haz ≠ false := by rw [hu, hset]; decide
  rcases step_next_cases h with ⟨rest, -, -, rfl⟩ | ⟨rest, c, hnext, hp, hr, hrun⟩ | ⟨x, rest, hin, rfl⟩ | ⟨l, rest, hin, -⟩
  · exact absurd hclear (hdiff rfl)
  · rcases runWord_next_cases hrun with ⟨i, s', rfl, heffect, rfl⟩ | ⟨e, rfl⟩
    · by_cases hi : i = .softreset
      · subst hi
        exact .inr (.inr ⟨by rw [hnext]; rfl, hp, hr⟩)
      · exact absurd hclear (hdiff (heffect.ie_haz hi).2)
    · exact absurd hclear (hdiff rfl)
  · obtain ⟨v, rfl, hbit, hr⟩ := transact_clears_haz (s := { s with inputs := rest }) hset hclear
    exact .inl ⟨v, rest, hin, hbit, hr⟩
  · exact .inr (.inl ⟨l, rest, hin⟩)

/-- Settles O22: irq is IE after a completion, and low while DONE is clear. -/
theorem interruptFollowsCompletion : Obligations.InterruptFollowsCompletion := by
  unfold Obligations.InterruptFollowsCompletion
  refine ⟨fun s => ?_, fun c s t h => ⟨runWord_done h, irq_of_done (runWord_done h), runWord_ie h, ?_⟩,
    fun s c hb => irq_of_not_done ?_, fun s => irq_of_not_done ?_, fun s b => rfl⟩
  · rw [State.irq, Bool.and_eq_true]
  · rintro rfl
    rw [irq_of_done (runWord_done h)]
    exact runWord_softreset_ie h
  · rw [hostWrite_cmd c hb, State.accept_done]
  · rw [hostWrite_status, State.writeStatus_done]
    rfl

/-- Settles O40: the stores of a step that is no pin change are those the pending command's effect leaves. -/
theorem keyStoresChangeOnlyBySetkeyOrReset : Obligations.KeyStoresChangeOnlyBySetkeyOrReset := by
  unfold Obligations.KeyStoresChangeOnlyBySetkeyOrReset
  intro s t h
  rcases step_change_cases h with hsame | hpin | ⟨rest, i, s', hnext, hr, hp, heffect, rfl⟩
  · refine ⟨fun hne => ?_, fun hne => ?_⟩
    · rcases hne with hne | hne
      exacts [absurd hsame.rkDes hne, absurd hsame.kvd hne]
    · rcases hne with hne | hne | hne | hne
      exacts [absurd hsame.rkDeal hne, absurd hsame.nrDeal hne, absurd hsame.kvl hne, absurd hsame.dnr hne]
  · exact ⟨fun _ => .inl hpin, fun _ => .inl hpin⟩
  · refine ⟨fun hne => .inr ⟨hnext, hr, ?_⟩, fun hne => .inr ⟨hnext, hr, ?_⟩⟩
    · rcases heffect.desStore hne with rfl | ⟨rfl, hkey⟩
      · exact .inl hp
      · exact .inr ⟨hp, hkey⟩
    · rcases heffect.dealStore hne with rfl | ⟨rfl, hkey⟩
      · exact .inl hp
      · exact .inr ⟨hp, hkey⟩

/-- Settles O41: the DOUTBUF of a step that is no pin change is the one the pending command's effect leaves. -/
theorem outputChangesOnlyByBlockCommandsOrReset : Obligations.OutputChangesOnlyByBlockCommandsOrReset := by
  unfold Obligations.OutputChangesOnlyByBlockCommandsOrReset
  intro s t h hne
  rcases step_change_cases h with hsame | hpin | ⟨rest, i, s', hnext, hr, hp, heffect, rfl⟩
  · exact absurd hsame.doutbuf hne
  · exact .inl hpin
  · exact .inr ⟨hnext, hr, rfl, encode i, List.mem_map_of_mem (f := encode) (heffect.doutbuf hne), hp⟩

/-- Settles O17: a reserved index names a reserved word, which reads zero and has no write; CTRL, CFG and CMD are their
fields with zeros above. -/
theorem reservedWordsAreInert : Obligations.ReservedWordsAreInert := by
  unfold Obligations.ReservedWordsAreInert
  refine ⟨fun s idx v h => ?_, fun s => ?_, fun s => ?_, fun s => hostRead_idxOf s .cmd⟩
  · obtain ⟨w, hw⟩ := regOf_of_reserved h
    rw [State.hostRead, State.hostWrite, hw]
    exact ⟨rfl, rfl⟩
  · rw [hostRead_ctrl, State.ctrlWord, BitVec.extractLsb'_append_eq_of_le (by decide), BitVec.getLsbD_append]
    simp
  · rw [hostRead_cfg, State.cfgWord, BitVec.extractLsb'_append_eq_of_add_le (by decide),
      BitVec.extractLsb'_append_eq_of_le (by decide)]
    simp

/-- Settles O18: a STATUS write is write-one-to-clear, and a read changes only the word returned to the host. -/
theorem statusWriteOneToClear : Obligations.StatusWriteOneToClear := by
  unfold Obligations.StatusWriteOneToClear
  intro s v
  refine ⟨?_, _, rfl⟩
  simp only [hostWrite_status, State.writeStatus, extractLsb'_one_eq_one_iff]

/-- Settles O43: at reset no command is pending, no DEAL schedule is stored and no session is open. -/
theorem resetMeetsTheStateInvariants : Obligations.ResetMeetsTheStateInvariants := by
  unfold Obligations.ResetMeetsTheStateInvariants
  have hdeal : State.reset.DealStoreInv := by decide
  exact ⟨rfl, hdeal, State.sessionInv_of_closed rfl rfl rfl rfl rfl⟩

end Sys2Proof.Machine

/-! SUPPORT. The host port of DES_core: what a step is when a host transaction or the core comes next, the register words a
range of indices names, and the bytes of a buffer in its words; then the statements about the port. -/

namespace Sys2Proof.Machine

/-! ### The next move -/

/-- A word that decodes runs its command (R83). -/
theorem runWord_of_decode {c : Word} {i : Instr} (s : State) (h : decode c = .ok i) : runWord c s = exec i s := by
  rw [runWord, h]

/-- When a host transaction comes next, a step performs it (R66). -/
theorem step_of_host {s : State} {x : Transaction} {rest : List Input} (h : s.inputs = .host x :: rest) :
    step s = .next (State.transact { s with inputs := rest } x) := by
  rw [step, move, h]

/-- While `rst` is released a read returns its register word and changes nothing of DES_core (R64). -/
theorem transact_read_of_released {s : State} (idx : Idx) (hr : s.rst = false) :
    s.transact (.read idx) = { s with readData := s.hostRead idx } := by
  simp [State.transact, hr]

/-- Settles O6: the core's turn runs the pending word, and the word runs the command it decodes to. -/
theorem stepRunsThePendingCommand : Obligations.StepRunsThePendingCommand := by
  unfold Obligations.StepRunsThePendingCommand
  intro s c i rest hnext hp hr hdec _
  rw [step_of_coreNext hnext, coreTurn_of_pending (s := { s with inputs := rest }) hp hr, runWord_of_decode _ hdec]

/-- Settles O7: an idle turn of the core, a host write and a host read on a released core. -/
theorem stepPerformsTheNextMove : Obligations.StepPerformsTheNextMove := by
  unfold Obligations.StepPerformsTheNextMove
  refine ⟨fun s rest hnext hp => ?_, fun s idx v rest hin hr => ?_, fun s idx rest hin hr => ?_⟩
  · rw [step_of_coreNext hnext, coreTurn_of_idle (s := { s with inputs := rest }) hp]
  · rw [step_of_host hin, transact_write_of_released (s := { s with inputs := rest }) idx v hr, State.hostWrite]
  · rw [step_of_host hin, transact_read_of_released (s := { s with inputs := rest }) idx hr]
    rfl

/-! ### Bytes and bits of a buffer in its words (R61) -/

/-- Byte j of a buffer is byte j mod 4, from bit 31 down, of its word j div 4 (R61). -/
theorem byteAt_eq_extractLsb'_wordAt {n : Nat} (b : BitVec n) {j : Nat} (hn : 32 * (j / 4 + 1) ≤ n) :
    byteAt b j = (wordAt b (j / 4)).extractLsb' (24 - 8 * (j % 4)) 8 := by
  apply BitVec.eq_of_getLsbD_eq
  intro i hi
  have hbit : 24 - 8 * (j % 4) + i < 32 := by omega
  have hpos : n - 8 * (j + 1) + i = n - 32 * (j / 4 + 1) + (24 - 8 * (j % 4) + i) := by omega
  simp [byteAt, wordAt, hi, hbit, hpos]

/-- Cipher bit 8j+k of a buffer is bit 31-8(j mod 4)-k of its word j div 4 (R61). -/
theorem getMsbD_eq_getLsbD_wordAt {n : Nat} (b : BitVec n) {j k : Nat} (hk : k < 8) (hn : 32 * (j / 4 + 1) ≤ n) :
    b.getMsbD (8 * j + k) = (wordAt b (j / 4)).getLsbD (31 - 8 * (j % 4) - k) := by
  have hin : 8 * j + k < n := by omega
  have hbit : 31 - 8 * (j % 4) - k < 32 := by omega
  have hpos : n - 1 - (8 * j + k) = n - 32 * (j / 4 + 1) + (31 - 8 * (j % 4) - k) := by omega
  simp [wordAt, BitVec.getMsbD_eq_getLsbD, hin, hbit, hpos]

/-- Where the host reads word j div 4 of a buffer, it finds the buffer's byte j and the bits of it (R61, R64). -/
theorem byte_and_bit_of_hostRead {n : Nat} {b : BitVec n} {s : State} {idx : Idx} {j k : Nat}
    (hread : s.hostRead idx = wordAt b (j / 4)) (hk : k < 8) (hn : 32 * (j / 4 + 1) ≤ n) :
    byteAt b j = (s.hostRead idx).extractLsb' (24 - 8 * (j % 4)) 8 ∧
      b.getMsbD (8 * j + k) = (s.hostRead idx).getLsbD (31 - 8 * (j % 4) - k) := by
  rw [hread]
  exact ⟨byteAt_eq_extractLsb'_wordAt b hn, getMsbD_eq_getLsbD_wordAt b hk hn⟩

/-- Settles O20: each buffer's words are read at the indices from its first one on. -/
theorem bufferBytesAreBigEndianInWords : Obligations.BufferBytesAreBigEndianInWords := by
  unfold Obligations.BufferBytesAreBigEndianInWords
  intro s j k hk
  constructor
  · intro hj
    exact byte_and_bit_of_hostRead (hostRead_idxOf s (.key ⟨j / 4, by omega⟩)) hk (by omega)
  · intro hj
    have hw : j / 4 < 4 := by omega
    have hn : 32 * (j / 4 + 1) ≤ 128 := by omega
    simp only [List.forall_mem_cons]
    refine ⟨?din, ?dout, ?iv, ?delta, ?cv, List.forall_mem_nil _⟩
    case din => exact byte_and_bit_of_hostRead (hostRead_idxOf s (.din ⟨j / 4, hw⟩)) hk hn
    case dout => exact byte_and_bit_of_hostRead (hostRead_idxOf s (.dout ⟨j / 4, hw⟩)) hk hn
    case iv => exact byte_and_bit_of_hostRead (hostRead_idxOf s (.iv ⟨j / 4, hw⟩)) hk hn
    case delta => exact byte_and_bit_of_hostRead (hostRead_idxOf s (.delta ⟨j / 4, hw⟩)) hk hn
    case cv => exact byte_and_bit_of_hostRead (hostRead_idxOf s (.cv ⟨j / 4, hw⟩)) hk hn

/-! ### Host writes by index (R63) -/

/-- The words of a buffer take consecutive indices: an index in the buffer's range is that of one of its words (R20). -/
theorem exists_idxOf_of_range {m base : Nat} (r : Fin m → Reg) (hr : ∀ w, (idxOf (r w)).toNat = base + w.val) {idx : Idx}
    (hlo : base ≤ idx.toNat) (hhi : idx.toNat < base + m) : ∃ w : Fin m, idx = idxOf (r w) ∧ idx.toNat - base = w.val := by
  refine ⟨⟨idx.toNat - base, by omega⟩, BitVec.eq_of_toNat_eq ?_, rfl⟩
  rw [hr]
  dsimp only
  omega

/-- The indices 0x04 to 0x0B are the words of KEYBUF (R20). -/
theorem exists_idxOf_key {idx : Idx} (hlo : 0x04 ≤ idx.toNat) (hhi : idx.toNat < 0x0C) :
    ∃ w, idx = idxOf (.key w) ∧ idx.toNat - 0x04 = w.val := exists_idxOf_of_range .key (by decide) hlo hhi

/-- The indices 0x0C to 0x0F are the words of DINBUF (R20). -/
theorem exists_idxOf_din {idx : Idx} (hlo : 0x0C ≤ idx.toNat) (hhi : idx.toNat < 0x10) :
    ∃ w, idx = idxOf (.din w) ∧ idx.toNat - 0x0C = w.val := exists_idxOf_of_range .din (by decide) hlo hhi

/-- The indices 0x14 to 0x17 are the words of IVBUF (R20). -/
theorem exists_idxOf_iv {idx : Idx} (hlo : 0x14 ≤ idx.toNat) (hhi : idx.toNat < 0x18) :
    ∃ w, idx = idxOf (.iv w) ∧ idx.toNat - 0x14 = w.val := exists_idxOf_of_range .iv (by decide) hlo hhi

/-- The indices 0x18 to 0x1B are the words of DELTABUF (R20). -/
theorem exists_idxOf_delta {idx : Idx} (hlo : 0x18 ≤ idx.toNat) (hhi : idx.toNat < 0x1C) :
    ∃ w, idx = idxOf (.delta w) ∧ idx.toNat - 0x18 = w.val := exists_idxOf_of_range .delta (by decide) hlo hhi

/-- A write to CTRL by its index sets IE to v[0] (R22, R63). -/
theorem hostWrite_ctrl (s : State) (v : Word) : s.hostWrite 0x00#6 v = { s with ie := v.getLsbD 0 } :=
  hostWrite_idxOf s .ctrl v

/-- A write to a read-only or a reserved word has no effect (R21, R63). -/
theorem hostWrite_readOnly (s : State) {idx : Idx} (v : Word)
    (h : (0x10 ≤ idx.toNat ∧ idx.toNat < 0x14) ∨ 0x1C ≤ idx.toNat) : s.hostWrite idx v = s := by
  have hreg : (∃ w, regOf idx = .dout w) ∨ (∃ w, regOf idx = .cv w) ∨ ∃ w, regOf idx = .reserved w := by
    rcases h with ⟨hlo, hhi⟩ | hlo
    · obtain ⟨w, rfl, -⟩ := exists_idxOf_of_range .dout (by decide) hlo hhi
      exact .inl ⟨w, regOf_idxOf _⟩
    · rcases Nat.lt_or_ge idx.toNat 0x20 with hhi | hge
      · obtain ⟨w, rfl, -⟩ := exists_idxOf_of_range .cv (by decide) hlo hhi
        exact .inr (.inl ⟨w, regOf_idxOf _⟩)
      · exact .inr (.inr (regOf_of_reserved hge))
  rcases hreg with ⟨w, hw⟩ | ⟨w, hw⟩ | ⟨w, hw⟩ <;> rw [State.hostWrite, hw, State.writeReg]

/-- A pending command turns away a write to CFG, CMD and the writable buffers: it only sets HAZ (R63, R340). -/
theorem hostWrite_of_busy {s : State} {idx : Idx} (v : Word) (hb : s.busy = true)
    (h : idx.toNat = 0x01 ∨ idx.toNat = 0x02 ∨ (0x04 ≤ idx.toNat ∧ idx.toNat < 0x10) ∨ (0x14 ≤ idx.toNat ∧ idx.toNat < 0x1C)) :
    s.hostWrite idx v = { s with haz := true } := by
  have hreg : ∃ s', s.hostWrite idx v = s.unlessBusy s' := by
    rcases h with h | h | ⟨hlo, hhi⟩ | ⟨hlo, hhi⟩
    · obtain rfl : idx = idxOf .cfg := BitVec.eq_of_toNat_eq h
      exact ⟨_, hostWrite_idxOf s .cfg v⟩
    · obtain rfl : idx = idxOf .cmd := BitVec.eq_of_toNat_eq h
      exact ⟨_, hostWrite_idxOf s .cmd v⟩
    · rcases Nat.lt_or_ge idx.toNat 0x0C with hlt | hge
      · obtain ⟨w, rfl, -⟩ := exists_idxOf_key hlo hlt
        exact ⟨_, hostWrite_idxOf s (.key w) v⟩
      · obtain ⟨w, rfl, -⟩ := exists_idxOf_din hge hhi
        exact ⟨_, hostWrite_idxOf s (.din w) v⟩
    · rcases Nat.lt_or_ge idx.toNat 0x18 with hlt | hge
      · obtain ⟨w, rfl, -⟩ := exists_idxOf_iv hlo hlt
        exact ⟨_, hostWrite_idxOf s (.iv w) v⟩
      · obtain ⟨w, rfl, -⟩ := exists_idxOf_delta hge hhi
        exact ⟨_, hostWrite_idxOf s (.delta w) v⟩
  obtain ⟨s', hs'⟩ := hreg
  rw [hs', unlessBusy_of_busy _ _ hb]

section Idle
variable {s : State} (v : Word) (hb : s.busy = false)
include hb

/-- A write to a word of KEYBUF on a core that is not busy replaces that word (R63). -/
theorem hostWrite_key (w : Fin 8) : s.hostWrite (idxOf (.key w)) v = { s with keybuf := setWordAt s.keybuf w.val v } :=
  (hostWrite_idxOf s (.key w) v).trans (unlessBusy_of_idle _ _ hb)

/-- A write to a word of DINBUF on a core that is not busy replaces that word (R63). -/
theorem hostWrite_din (w : Fin 4) : s.hostWrite (idxOf (.din w)) v = { s with dinbuf := setWordAt s.dinbuf w.val v } :=
  (hostWrite_idxOf s (.din w) v).trans (unlessBusy_of_idle _ _ hb)

/-- A write to a word of IVBUF on a core that is not busy replaces that word (R63). -/
theorem hostWrite_iv (w : Fin 4) : s.hostWrite (idxOf (.iv w)) v = { s with ivbuf := setWordAt s.ivbuf w.val v } :=
  (hostWrite_idxOf s (.iv w) v).trans (unlessBusy_of_idle _ _ hb)

/-- A write to a word of DELTABUF on a core that is not busy replaces that word (R63). -/
theorem hostWrite_delta (w : Fin 4) :
    s.hostWrite (idxOf (.delta w)) v = { s with deltabuf := setWordAt s.deltabuf w.val v } :=
  (hostWrite_idxOf s (.delta w) v).trans (unlessBusy_of_idle _ _ hb)

end Idle

/-- The words of a buffer of m words after a write to word w of it (R61, R63). -/
theorem wordAt_setWordAt_fin {m : Nat} (b : BitVec (32 * m)) (w : Fin m) (v : Word) :
    ∀ w' < m, wordAt (setWordAt b w.val v) w' = if w' = w.val then v else wordAt b w' :=
  fun w' hw' => wordAt_setWordAt b v w.val w' (by omega) (by omega)

/-- Settles O16: an index falls into the range of one register, whose write has the stated effect. -/
theorem hostWriteByIndex : Obligations.HostWriteByIndex := by
  unfold Obligations.HostWriteByIndex
  intro s idx v
  dsimp only
  have hidx {i : Idx} (h : idx.toNat = i.toNat) : idx = i := BitVec.eq_of_toNat_eq h
  refine ⟨fun h => ?ctrl, fun h => ?status, hostWrite_readOnly s v, hostWrite_of_busy v,
    fun hb => ⟨fun h => ?cfg, fun h => ?cmd, fun ⟨hlo, hhi⟩ => ?key, fun ⟨hlo, hhi⟩ => ?din, fun ⟨hlo, hhi⟩ => ?iv,
      fun ⟨hlo, hhi⟩ => ?delta⟩⟩
  case ctrl => rw [hidx (i := 0x00#6) h, hostWrite_ctrl]
  case status =>
    rw [hidx (i := 0x03#6) h, hostWrite_status, State.writeStatus]
    cases v.getLsbD 1 <;> cases v.getLsbD 2 <;> simp
  case cfg => rw [hidx (i := 0x01#6) h, hostWrite_cfg v hb]
  case cmd => rw [hidx (i := 0x02#6) h, hostWrite_cmd v hb, State.accept]
  case key =>
    obtain ⟨w, rfl, hw⟩ := exists_idxOf_key hlo hhi
    rw [hw, hostWrite_key v hb w]
    exact ⟨rfl, wordAt_setWordAt_fin (m := 8) s.keybuf w v⟩
  case din =>
    obtain ⟨w, rfl, hw⟩ := exists_idxOf_din hlo hhi
    rw [hw, hostWrite_din v hb w]
    exact ⟨rfl, wordAt_setWordAt_fin (m := 4) s.dinbuf w v⟩
  case iv =>
    obtain ⟨w, rfl, hw⟩ := exists_idxOf_iv hlo hhi
    rw [hw, hostWrite_iv v hb w]
    exact ⟨rfl, wordAt_setWordAt_fin (m := 4) s.ivbuf w v⟩
  case delta =>
    obtain ⟨w, rfl, hw⟩ := exists_idxOf_delta hlo hhi
    rw [hw, hostWrite_delta v hb w]
    exact ⟨rfl, wordAt_setWordAt_fin (m := 4) s.deltabuf w v⟩

end Sys2Proof.Machine

/-! SUPPORT. The encoding of DES_core's commands and of CFG, and the frame of each command: a word decodes exactly from its
encoding, and a command that is no SOFTRESET keeps the operands and with them most register words; then the statements. -/

namespace Sys2Proof.Machine

/-! ### Command words (R80 to R84) -/

/-- The commands, in the order of the opcode map (R82). -/
def commands : List Instr :=
  [.nop, .setkey, .encrypt, .decrypt, .modeInit, .modeEnc, .modeDec, .modeClear, .softreset]

/-- There are no other commands. -/
theorem mem_commands (i : Instr) : i ∈ commands := by
  cases i <;> decide

/-- The word of a command decodes to the command (R82, R83). -/
@[simp] theorem decode_encode (i : Instr) : decode (encode i) = .ok i := by
  cases i <;> decide

/-- A word decodes to a command exactly when it is the command's encoding (R82). -/
theorem decode_eq_ok_iff {c : Word} {i : Instr} : decode c = .ok i ↔ c = encode i :=
  ⟨eq_encode_of_decode, by rintro rfl; exact decode_encode i⟩

/-- The RSV field of a command's word is zero (R80). -/
@[simp] theorem rsvOf_encode (i : Instr) : rsvOf (encode i) = 0#24 := by
  cases i <;> decide

/-- A word with RSV zero and the OPC of a command is the command's encoding (R80, R83). -/
theorem eq_encode_of_fields {c : Word} {i : Instr} (hrsv : rsvOf c = 0#24) (hopc : opcOf c = i.opc) : c = encode i := by
  rw [← rsvOf_append_opcOf c, hrsv, hopc, encode]

/-- Settles O2: a command's word decodes to it, and a word that decodes is its RSV field, zero, over the command's OPC. -/
theorem decodeAndEncodeAgree : Obligations.DecodeAndEncodeAgree := by
  unfold Obligations.DecodeAndEncodeAgree
  exact fun i _ => ⟨decode_encode i, fun _ => eq_encode_of_decode⟩

/-- Settles O3: the mask keeps every bit, and the matches of the map are the encodings of the commands. -/
theorem decoderFollowsTheOpcodeMap : Obligations.DecoderFollowsTheOpcodeMap := by
  unfold Obligations.DecoderFollowsTheOpcodeMap
  intro c i
  have hmask : c &&& 0xFFFFFFFF#32 = c := BitVec.and_allOnes
  have hrow : (c, i) ∈ commands.map (fun i => (encode i, i)) ↔ c = encode i := by
    simp [mem_commands, eq_comm]
  rw [hmask, decode_eq_ok_iff]
  exact hrow.symm

/-- Settles O8: a word that decodes is an encoding, which has RSV zero and an assigned OPC; any other word is illegal. -/
theorem everyWordIsACommandOrIllegal : Obligations.EveryWordIsACommandOrIllegal := by
  unfold Obligations.EveryWordIsACommandOrIllegal
  intro c s
  constructor
  · intro hbad
    rcases runWord_cases c s with ⟨i, hdec, -⟩ | ⟨_, -, hrun⟩
    · obtain rfl := eq_encode_of_decode hdec
      have hopc : opcOf (encode i) ∈ commands.map Instr.opc := by
        rw [opcOf_encode]
        exact List.mem_map_of_mem (mem_commands i)
      rcases hbad with hrsv | hunassigned
      · exact absurd (rsvOf_encode i) hrsv
      · exact absurd hopc hunassigned
    · exact hrun
  · intro i hrsv hopc
    obtain rfl := eq_encode_of_fields hrsv hopc
    exact runWord_of_decode s (decode_encode i)

/-- Settles O1: the words are small enough to decode by evaluation. -/
theorem sampleCommandWordsDecode : Obligations.SampleCommandWordsDecode := by
  unfold Obligations.SampleCommandWordsDecode
  decide

/-! ### The CFG word (R81) -/

/-- A word put above a shorter one adds its value at its place. -/
theorem toNat_or_shiftLeft {x y : Word} {k : Nat} (hx : x.toNat < 2 ^ k) (hy : 2 ^ k * y.toNat < 2 ^ 32) :
    (x ||| y <<< k).toNat = x.toNat + 2 ^ k * y.toNat := by
  have hshift : (y <<< k).toNat = 2 ^ k * y.toNat := by
    rw [BitVec.toNat_shiftLeft, Nat.shiftLeft_eq, Nat.mul_comm, Nat.mod_eq_of_lt hy]
  rw [BitVec.toNat_or, hshift, Nat.or_comm, ← Nat.two_pow_add_eq_or_of_lt hx, Nat.add_comm]

/-- Operands in range are their bounds (R81). -/
theorem CfgOperands.wf_iff {o : CfgOperands} :
    o.wf = true ↔ o.alg < 2 ∧ o.mode < 8 ∧ o.keylen < 64 ∧ o.ivlen < 32 ∧ o.dlen < 32 := by
  simp [CfgOperands.wf, and_assoc]

/-- The CFG word of operands in range is the sum of the operands at their places (R81). -/
theorem encodeCfg_toNat {o : CfgOperands} (h : o.wf = true) :
    (encodeCfg o).toNat = o.alg + 2 ^ 1 * o.mode + 2 ^ 4 * o.keylen + 2 ^ 10 * o.ivlen + 2 ^ 15 * o.dlen := by
  obtain ⟨halg, hmode, hkey, hiv, hd⟩ := CfgOperands.wf_iff.mp h
  have hof {n : Nat} (hn : n < 2 ^ 32) : (BitVec.ofNat 32 n).toNat = n := by
    rw [BitVec.toNat_ofNat, Nat.mod_eq_of_lt hn]
  have halg' := hof (n := o.alg) (by omega)
  have hmode' := hof (n := o.mode) (by omega)
  have hkey' := hof (n := o.keylen) (by omega)
  have hiv' := hof (n := o.ivlen) (by omega)
  have hd' := hof (n := o.dlen) (by omega)
  have h1 := toNat_or_shiftLeft (x := BitVec.ofNat 32 o.alg) (y := BitVec.ofNat 32 o.mode) (k := 1) (by omega) (by omega)
  have h4 := toNat_or_shiftLeft (x := _ ||| _) (y := BitVec.ofNat 32 o.keylen) (k := 4) (h1.trans_lt (by omega)) (by omega)
  have h10 := toNat_or_shiftLeft (x := _ ||| _) (y := BitVec.ofNat 32 o.ivlen) (k := 10) (h4.trans_lt (by omega)) (by omega)
  have h15 := toNat_or_shiftLeft (x := _ ||| _) (y := BitVec.ofNat 32 o.dlen) (k := 15) (h10.trans_lt (by omega)) (by omega)
  rw [encodeCfg, h15, h10, h4, h1, halg', hmode', hkey', hiv', hd']

/-- A field of a word as a number. -/
theorem extractLsb'_toNat_eq_div_mod (c : Word) (start len : Nat) :
    (c.extractLsb' start len).toNat = c.toNat / 2 ^ start % 2 ^ len := by
  rw [BitVec.extractLsb'_toNat, Nat.shiftRight_eq_div_pow]

/-- The CFG word of operands in range gives them back (R23, R81). -/
theorem decodeCfg_encodeCfg {o : CfgOperands} (h : o.wf = true) : decodeCfg (encodeCfg o) = o := by
  obtain ⟨halg, hmode, hkey, hiv, hd⟩ := CfgOperands.wf_iff.mp h
  have hsum := encodeCfg_toNat h
  obtain ⟨alg, mode, keylen, ivlen, dlen⟩ := o
  dsimp only at hsum halg hmode hkey hiv hd
  simp only [decodeCfg, extractLsb'_toNat_eq_div_mod, hsum, CfgOperands.mk.injEq]
  omega

/-- Settles O4: the operands stand side by side in the word, below bit 20. -/
theorem cfgWordCarriesItsOperands : Obligations.CfgWordCarriesItsOperands := by
  unfold Obligations.CfgWordCarriesItsOperands
  refine ⟨fun o h => ⟨encodeCfg_toNat h, ?_, decodeCfg_encodeCfg h⟩, by decide⟩
  obtain ⟨halg, hmode, hkey, hiv, hd⟩ := CfgOperands.wf_iff.mp h
  apply BitVec.eq_of_toNat_eq
  rw [extractLsb'_toNat_eq_div_mod, encodeCfg_toNat h, BitVec.toNat_ofNat]
  omega

/-! ### What a command leaves, and what it keeps (R85) -/

/-- The checks of ENCRYPT and DECRYPT do not fail with the code of success (R232, R300). -/
theorem cipherCheck_ne_error_ok (s : State) : cipherCheck s ≠ .error .ok := by
  unfold cipherCheck
  split_ifs <;> simp

/-- The checks of MODE_ENC and MODE_DEC do not fail with the code of success (R235, R300). -/
theorem sessionCheck_ne_error_ok (s : State) : sessionCheck s ≠ .error .ok := by
  unfold sessionCheck
  split_ifs <;> simp

/-- No command fails with the code of success (R300). -/
theorem execResult_error_ne_ok {i : Instr} {s : State} {e : ErrCode} (h : execResult i s = .error e) : e ≠ .ok := by
  rintro rfl
  cases i with
  | nop | modeClear | softreset => cases h
  | setkey | modeInit =>
    simp only [execResult, setkeyResult, modeInitResult] at h
    repeat' split at h
    all_goals cases h
  | encrypt | decrypt =>
    simp only [execResult, encryptResult, decryptResult] at h
    split at h
    · next hcheck => cases h; exact cipherCheck_ne_error_ok s hcheck
    · cases h
  | modeEnc | modeDec =>
    simp only [execResult, modeBlockResult] at h
    split at h
    · next hcheck => cases h; exact sessionCheck_ne_error_ok s hcheck
    · cases h

/-- What a command leaves: its effect, completed with OK, or the state as it was, completed with an error (R303, R305). -/
theorem exec_next_cases {i : Instr} {s t : State} (h : exec i s = .next t) :
    (∃ s', Effect s i s' ∧ t = s'.complete i.opc .ok) ∨ ∃ e, e ≠ .ok ∧ t = s.complete i.opc e := by
  rw [exec_eq_finish_execResult] at h
  rcases finish_cases s i.opc (execResult i s) with ⟨s', hr, hfin⟩ | ⟨e, hr, hfin⟩ <;> rw [hfin] at h <;> cases h
  · exact .inl ⟨s', effect_of_execResult hr, rfl⟩
  · exact .inr ⟨e, execResult_error_ne_ok hr, rfl⟩

/-- Two states agree on what only the host and a reset write: IE and the operands (R85, R86). -/
structure SameOperands (s t : State) : Prop where
  ie : t.ie = s.ie
  cfg : t.cfg = s.cfg
  keybuf : t.keybuf = s.keybuf
  dinbuf : t.dinbuf = s.dinbuf
  ivbuf : t.ivbuf = s.ivbuf
  deltabuf : t.deltabuf = s.deltabuf

/-- Every command but SOFTRESET keeps IE and the operands (R85). -/
theorem exec_sameOperands {i : Instr} {s t : State} (hi : i ≠ .softreset) (h : exec i s = .next t) : SameOperands s t := by
  rcases exec_next_cases h with ⟨s', heffect, rfl⟩ | ⟨e, -, rfl⟩
  · cases heffect with
    | softreset => exact absurd rfl hi
    | nop | setkeyDes | setkeyDeal | encrypt | decrypt | modeInit | modeEnc | modeDec | modeClear => constructor <;> rfl
  · constructor <;> rfl

/-- States that agree on IE and the operands read alike, but for STATUS, and for DOUT and CV where these buffers differ
(R64). -/
theorem SameOperands.hostRead {s t : State} (h : SameOperands s t) {idx : Idx} (hstatus : idx.toNat ≠ 0x03)
    (hdout : 0x10 ≤ idx.toNat ∧ idx.toNat < 0x14 → t.doutbuf = s.doutbuf)
    (hcv : 0x1C ≤ idx.toNat ∧ idx.toNat < 0x20 → t.cvbuf = s.cvbuf) : t.hostRead idx = s.hostRead idx := by
  obtain ⟨r, rfl⟩ : ∃ r, idx = idxOf r := ⟨regOf idx, (idxOf_regOf idx).symm⟩
  rw [hostRead_idxOf, hostRead_idxOf]
  cases r with
  | ctrl => simp only [State.readReg, State.ctrlWord, h.ie]
  | cfg => simp only [State.readReg, State.cfgWord, h.cfg]
  | cmd | reserved => rfl
  | status => exact absurd rfl hstatus
  | key w => simp only [State.readReg, h.keybuf]
  | din w => simp only [State.readReg, h.dinbuf]
  | dout w =>
    have hrange : ∀ w, 0x10 ≤ (idxOf (.dout w)).toNat ∧ (idxOf (.dout w)).toNat < 0x14 := by decide
    simp only [State.readReg, hdout (hrange w)]
  | iv w => simp only [State.readReg, h.ivbuf]
  | delta w => simp only [State.readReg, h.deltabuf]
  | cv w =>
    have hrange : ∀ w, 0x1C ≤ (idxOf (.cv w)).toNat ∧ (idxOf (.cv w)).toNat < 0x20 := by decide
    simp only [State.readReg, hcv (hrange w)]

/-- A DES block does not touch the hidden schedule (R188). -/
@[simp] theorem State.innerAfter_des (s : State) (d : Dir) : s.innerAfter .des d = s.dealInnerRk := rfl

/-- ENCRYPT and DECRYPT write DOUTBUF, and the hidden schedule as the configured algorithm does (R232, R233). -/
theorem Effect.of_cipherCommand {i : Instr} {s s' : State} (hi : i = .encrypt ∨ i = .decrypt) (h : Effect s i s') :
    ∃ out d, s' = { s with doutbuf := out, dealInnerRk := s.innerAfter s.cfgAlg d } := by
  cases h with
  | encrypt a hok => obtain ⟨-, -, rfl⟩ := cipherCheck_eq_ok.mp hok; exact ⟨_, _, rfl⟩
  | decrypt a hok => obtain ⟨-, -, rfl⟩ := cipherCheck_eq_ok.mp hok; exact ⟨_, _, rfl⟩
  | nop | setkeyDes | setkeyDeal | modeInit | modeEnc | modeDec | modeClear | softreset => simp at hi

/-- Settles O36: success writes DOUTBUF and DEAL's hidden schedule, an error neither. -/
theorem cipherCommandsFrame : Obligations.CipherCommandsFrame := by
  unfold Obligations.CipherCommandsFrame
  intro i s t hi h
  have hsame : SameOperands s t := exec_sameOperands (by rintro rfl; simp at hi) h
  have hread (hcv : t.cvbuf = s.cvbuf) (idx : Idx) (hstatus : idx.toNat ≠ 0x03)
      (hdout : ¬ (0x10 ≤ idx.toNat ∧ idx.toNat < 0x14)) : t.hostRead idx = s.hostRead idx :=
    hsame.hostRead hstatus (absurd · hdout) fun _ => hcv
  rcases exec_next_cases h with ⟨s', heffect, rfl⟩ | ⟨e, -, rfl⟩
  · obtain ⟨out, d, rfl⟩ := heffect.of_cipherCommand hi
    exact ⟨rfl, fun halg => by simp [halg], hread rfl⟩
  · exact ⟨rfl, fun _ => rfl, hread rfl⟩

/-- MODE_ENC and MODE_DEC write the session's row to DOUTBUF and CVBUF, and the hidden schedule as the session's algorithm
does (R235, R236). -/
theorem Effect.of_sessionBlockCommand {i : Instr} {s s' : State} (hi : i = .modeEnc ∨ i = .modeDec) (h : Effect s i s') :
    ∃ d d', s' =
      { s with
        doutbuf := (s.sessionChain d s.salg).Y, cvbuf := (s.sessionChain d s.salg).CV
        dealInnerRk := s.innerAfter s.salg d' } := by
  cases h with
  | modeEnc a hok => obtain ⟨-, -, -, rfl⟩ := sessionCheck_eq_ok.mp hok; exact ⟨.enc, _, rfl⟩
  | modeDec a hok => obtain ⟨-, -, -, rfl⟩ := sessionCheck_eq_ok.mp hok; exact ⟨.dec, _, rfl⟩
  | nop | setkeyDes | setkeyDeal | encrypt | decrypt | modeInit | modeClear | softreset => simp at hi

/-- Bytes 8 to 15 of an 8-byte string with zero fill are zero (R202). -/
theorem extractLsb'_zeroFill (b : Block64) : (zeroFill b).extractLsb' 0 64 = 0#64 := by
  rw [zeroFill, BitVec.extractLsb'_append_eq_of_add_le (by decide), BitVec.extractLsb'_eq_self]

/-- Settles O37: success writes DOUTBUF, CVBUF and DEAL's hidden schedule, zero-filled under DES; an error writes none. -/
theorem sessionBlockCommandsFrame : Obligations.SessionBlockCommandsFrame := by
  unfold Obligations.SessionBlockCommandsFrame
  intro i s t hi h
  have hsame : SameOperands s t := exec_sameOperands (by rintro rfl; simp at hi) h
  have hread (idx : Idx) (hstatus : idx.toNat ≠ 0x03) (hdout : ¬ (0x10 ≤ idx.toNat ∧ idx.toNat < 0x14))
      (hcv : ¬ (0x1C ≤ idx.toNat ∧ idx.toNat < 0x20)) : t.hostRead idx = s.hostRead idx :=
    hsame.hostRead hstatus (absurd · hdout) (absurd · hcv)
  rcases exec_next_cases h with ⟨s', heffect, rfl⟩ | ⟨e, he, rfl⟩
  · obtain ⟨d, d', rfl⟩ := heffect.of_sessionBlockCommand hi
    have hfill (halg : s.salg = .des) : (s.sessionChain d s.salg).Y.extractLsb' 0 64 = 0#64 ∧
        (s.sessionChain d s.salg).CV.extractLsb' 0 64 = 0#64 := by
      rw [halg, State.sessionChain]
      exact ⟨extractLsb'_zeroFill _, extractLsb'_zeroFill _⟩
    exact ⟨rfl, fun halg => by simp [halg], fun halg _ => hfill halg, hread⟩
  · exact ⟨rfl, fun _ => rfl, fun _ hok => absurd hok he, hread⟩

/-- Settles O38: MODE_INIT and MODE_CLEAR write the session alone. -/
theorem sessionControlFrame : Obligations.SessionControlFrame := by
  unfold Obligations.SessionControlFrame
  intro i s t hi h
  have hsame : SameOperands s t := exec_sameOperands (by rintro rfl; simp at hi) h
  have hread (hdout : t.doutbuf = s.doutbuf) (idx : Idx) (hstatus : idx.toNat ≠ 0x03)
      (hcv : ¬ (0x1C ≤ idx.toNat ∧ idx.toNat < 0x20)) : t.hostRead idx = s.hostRead idx :=
    hsame.hostRead hstatus (fun _ => hdout) (absurd · hcv)
  rcases exec_next_cases h with ⟨s', heffect, rfl⟩ | ⟨e, -, rfl⟩
  · cases heffect with
    | modeInit | modeClear => exact ⟨rfl, hread rfl⟩
    | nop | setkeyDes | setkeyDeal | encrypt | decrypt | modeEnc | modeDec | softreset => simp at hi
  · exact ⟨rfl, hread rfl⟩

/-- Settles O39: SETKEY writes the key store of the configured algorithm alone. -/
theorem setkeyFrame : Obligations.SetkeyFrame := by
  unfold Obligations.SetkeyFrame
  intro s t h
  have hsame : SameOperands s t := exec_sameOperands (by decide) h
  have hread (hdout : t.doutbuf = s.doutbuf) (hcv : t.cvbuf = s.cvbuf) (idx : Idx) (hstatus : idx.toNat ≠ 0x03) :
      t.hostRead idx = s.hostRead idx := hsame.hostRead hstatus (fun _ => hdout) fun _ => hcv
  rcases exec_next_cases h with ⟨s', heffect, rfl⟩ | ⟨e, -, rfl⟩
  · cases heffect with
    | setkeyDes rk halg => exact ⟨fun _ => rfl, fun hdeal => by simp [halg] at hdeal, hread rfl rfl⟩
    | setkeyDeal nr rk halg => exact ⟨fun hdes => by simp [halg] at hdes, fun _ => rfl, hread rfl rfl⟩
  · exact ⟨fun _ => rfl, fun _ => rfl, hread rfl rfl⟩

end Sys2Proof.Machine

/-! SUPPORT. The bit_permutation_unit (spec/40_bit_permutation.md): what getBit and setBit do inside and outside their
range, and the failure and the output bits of permute; then the statements about the unit. -/

namespace Sys2Proof.Machine

/-! ### getBit and setBit (R100, R101) -/

/-- Bit i of `bits(B)` is bit i mod 8 of byte i div 8 (R9). -/
theorem bitsOf_getMsbD (B : List Byte) (i : Nat) :
    (bitsOf B).getMsbD i = (B.getD (i / 8) 0#8).getMsbD (i % 8) := by
  induction B generalizing i with
  | nil => simp [bitsOf]
  | cons b bs ih =>
    rw [bitsOf, BitVec.getMsbD_cast, BitVec.getMsbD_append]
    by_cases hi : i < 8
    · simp [hi, Nat.div_eq_of_lt hi, Nat.mod_eq_of_lt hi]
    · have hdiv : i / 8 = (i - 8) / 8 + 1 := by omega
      have hmod : i % 8 = (i - 8) % 8 := by omega
      simp [hi, ih, hdiv, hmod]

/-- The byte with bit k, counted from the most significant end, made v: what setBit stores (R101). -/
def putBit (b : Byte) (k : Nat) (v : Bool) : Byte :=
  if v then b ||| 1#8 <<< (7 - k) else b &&& ~~~(1#8 <<< (7 - k))

/-- Putting a bit changes that bit alone. -/
theorem putBit_getMsbD (b : Byte) {j k : Nat} (v : Bool) (hj : j < 8) (hk : k < 8) :
    (putBit b k v).getMsbD j = if j = k then v else b.getMsbD j := by
  have hmask : (1#8 <<< (7 - k)).getMsbD j = decide (j = k) := by
    simp only [BitVec.getMsbD_eq_getLsbD, BitVec.getLsbD_shiftLeft, BitVec.getLsbD_one]
    grind
  unfold putBit
  generalize 1#8 <<< (7 - k) = mask at hmask
  by_cases h : j = k
  · subst h; cases v <;> simp [hmask, hj]
  · cases v <;> simp [hmask, h, hj]

/-- Putting back a bit that was read changes nothing (R104). -/
theorem putBit_getMsbD_self (b : Byte) {k : Nat} (hk : k < 8) : putBit b k (b.getMsbD k) = b := by
  apply BitVec.eq_of_getMsbD_eq
  intro j hj
  rw [putBit_getMsbD b _ hj hk]
  split_ifs with h
  · rw [h]
  · rfl

/-- Inside the range getBit reads its bit of its byte. -/
theorem getBit_of_lt {B : List Byte} {i : Nat} (h : i < 8 * B.length) :
    getBit B i = .ok ((B.getD (i / 8) 0#8).getMsbD (i % 8)) := by
  have hbyte : i / 8 < B.length := by omega
  have hbit : i % 8 < 8 := by omega
  have hmask (x : Byte) : (x &&& 1#8 == 1#8) = x.getLsbD 0 := by
    rw [BitVec.and_one_eq_setWidth_ofBool_getLsbD]
    cases x.getLsbD 0 <;> rfl
  simp [getBit, hbyte, hmask, BitVec.getMsbD_eq_getLsbD, hbit]

theorem getBit_of_ge {B : List Byte} {i : Nat} (h : 8 * B.length ≤ i) : getBit B i = .error .range := by
  rw [getBit, List.getElem?_eq_none (by omega)]

/-- Inside the range setBit puts its bit in its byte. -/
theorem setBit_of_lt {B : List Byte} {i : Nat} (v : Bool) (h : i < 8 * B.length) :
    setBit B i v = .ok (B.set (i / 8) (putBit (B.getD (i / 8) 0#8) (i % 8) v)) := by
  have hbyte : i / 8 < B.length := by omega
  simp [setBit, hbyte, putBit]

theorem setBit_of_ge {B : List Byte} {i : Nat} (v : Bool) (h : 8 * B.length ≤ i) : setBit B i v = .error .range := by
  rw [setBit, List.getElem?_eq_none (by omega)]

/-- getBit after setBit: the bit written, and every other bit as it was. -/
theorem getBit_setBit {B B' : List Byte} {i j : Nat} {v : Bool} (hset : setBit B i v = .ok B')
    (hi : i < 8 * B.length) (hj : j < 8 * B.length) : getBit B' j = if j = i then .ok v else getBit B j := by
  rw [setBit_of_lt v hi] at hset
  cases hset
  have hbyte : i / 8 < B.length := by omega
  rw [getBit_of_lt (by simpa using hj), getBit_of_lt hj]
  by_cases hsame : j / 8 = i / 8
  · have hiff : j % 8 = i % 8 ↔ j = i := by omega
    have hget : (B.set (i / 8) (putBit (B.getD (i / 8) 0#8) (i % 8) v)).getD (j / 8) 0#8 =
        putBit (B.getD (i / 8) 0#8) (i % 8) v := by simp [hsame, hbyte]
    rw [hget, putBit_getMsbD _ _ (by omega) (by omega), hsame]
    simp only [hiff]
    split_ifs <;> rfl
  · have hne : j ≠ i := by rintro rfl; exact hsame rfl
    simp [hne, List.getElem?_set_ne (Ne.symm hsame)]

/-- Setting a bit to the value read from it changes nothing (R104). -/
theorem setBit_of_getBit {B : List Byte} {i : Nat} {v : Bool} (h : getBit B i = .ok v) : setBit B i v = .ok B := by
  rcases Nat.lt_or_ge i (8 * B.length) with hi | hi
  · rw [getBit_of_lt hi] at h
    cases h
    have hbyte : i / 8 < B.length := by omega
    rw [setBit_of_lt _ hi, putBit_getMsbD_self _ (by omega)]
    simp [hbyte]
  · rw [getBit_of_ge hi] at h
    cases h

/-- Settles O46: getBit and setBit read and write one bit of one byte, and writing back what was read changes nothing. -/
theorem bitPrimitives : Obligations.BitPrimitives := by
  unfold Obligations.BitPrimitives
  intro B i
  refine ⟨fun hi => ⟨?_, ?_⟩, fun hi => ⟨getBit_of_ge hi, fun v => setBit_of_ge v hi⟩, fun hi v => ?_,
    fun v => setBit_of_getBit⟩
  · have hbit : i % 8 < 8 := by omega
    rw [getBit_of_lt hi, BitVec.getMsbD_eq_getLsbD, decide_eq_true hbit, Bool.true_and]
  · rw [getBit_of_lt hi, bitsOf_getMsbD]
  · exact ⟨_, setBit_of_lt v hi, List.length_set, fun j hj => getBit_setBit (setBit_of_lt v hi) hi hj⟩

/-! ### permute (R102) and the wired permutations (R105 to R110) -/

/-- permute fails, and then with RANGE, exactly when some entry lies outside the input. -/
theorem permute_eq_error {n : Nat} {x : BitVec n} {T : List Int} {msbFirst : Bool} {o : Int} {e : PrimFail} :
    permute x T msbFirst o = .error e ↔ e = .range ∧ ∃ t ∈ T, t - o < 0 ∨ (n : Int) ≤ t - o := by
  have hall : T.all (entryInRange n o) = true ↔ ¬ ∃ t ∈ T, t - o < 0 ∨ (n : Int) ≤ t - o := by
    simp [entryInRange]
  unfold permute
  split_ifs with h
  · simp only [hall.mp h, and_false]
  · simp only [not_not.mp (hall.not.mp h), and_true, Except.error.injEq, eq_comm]

/-- The input bit an output bit of permute is, from the most or the least significant end. -/
theorem permute_getMsbD {n : Nat} {x : BitVec n} {T : List Int} {msbFirst : Bool} {o : Int} {out : BitVec T.length}
    (hok : permute x T msbFirst o = .ok out) {i : Nat} (hi : i < T.length) :
    out.getMsbD i = x.getMsbD (sourceIndex n msbFirst o T[i]) := by
  unfold permute at hok
  split_ifs at hok
  cases hok
  simp [selectBits_getMsbD, hi]

/-- Settles O47: permute fails exactly on an entry outside the input, and otherwise each output bit is the one its entry
names. -/
theorem permuteBoundsAndBits : Obligations.PermuteBoundsAndBits := by
  unfold Obligations.PermuteBoundsAndBits
  intro n x T msbFirst o
  refine ⟨by simp [permute_eq_error], fun e he => (permute_eq_error.mp he).1, fun out hok i hi => ?_⟩
  rw [permute_getMsbD hok hi, sourceIndex]
  split_ifs <;> rfl

/-- A wired permutation whose entries count the input's bits from 1 is permute with its table, which does not fail
(R105, R110). -/
theorem wire_eq_permute {n : Nat} (x : BitVec n) {T : List Nat} (hT : ∀ t ∈ T, 1 ≤ t ∧ t ≤ n) :
    ∃ out, permute x (T.map Int.ofNat) true 1 = .ok out ∧ ∀ i < T.length, (wire x T).getMsbD i = out.getMsbD i := by
  cases hres : permute x (T.map Int.ofNat) true 1 with
  | error e =>
    obtain ⟨-, t, ht, hout⟩ := permute_eq_error.mp hres
    obtain ⟨k, hk, rfl⟩ := List.mem_map.mp ht
    obtain ⟨h1, hn⟩ := hT k hk
    simp only [Int.ofNat_eq_natCast] at hout
    omega
  | ok out =>
    refine ⟨out, rfl, fun i hi => ?_⟩
    rw [wire_getMsbD x T i hi, permute_getMsbD hres (by simpa using hi)]
    simp [sourceIndex]

/-- Settles O48: the entries of each table are in range, so each wired permutation is permute with its table. -/
theorem wiredPermutationsAreTheTables : Obligations.WiredPermutationsAreTheTables := by
  unfold Obligations.WiredPermutationsAreTheTables
  have hpc1 : ∀ t ∈ pc1Table, 1 ≤ t ∧ t ≤ 64 := by decide
  have hpc2 : ∀ t ∈ pc2Table, 1 ≤ t ∧ t ≤ 56 := by decide
  have hE : ∀ t ∈ eTable, 1 ≤ t ∧ t ≤ 32 := by decide
  have hP : ∀ t ∈ pTable, 1 ≤ t ∧ t ≤ 32 := by decide
  exact ⟨fun k => wire_eq_permute k hpc1, fun cd => wire_eq_permute cd hpc2, fun r => wire_eq_permute r hE,
    fun s => wire_eq_permute s hP⟩

end Sys2Proof.Machine

/-! SUPPORT. The Feistel_iterator (spec/41_feistel_iterator.md): what the functions of R121 and R122 answer for a round
transform that does not fail, and the working registers of the iterative build before each round; then the statements
about the iterator. -/

namespace Sys2Proof.Machine

variable {h : Nat} {RK : Type}

/-! ### The functions of a transform that does not fail (R121 to R123) -/

/-- `FeistelEncrypt` does not fail where its round transform does not (R124). -/
theorem feistelEncryptE_ok (F : BitVec h → RK → BitVec h) (rk : List RK) (X : BitVec (h + h)) :
    feistelEncryptE (fun r k => .ok (F r k)) rk X = .ok (feistelEncrypt F rk X) := by
  have hrounds : rk.foldlM (fun p k => (.ok (roundEnc F p k) : Except PrimFail _)) (leftHalf X, rightHalf X) =
      .ok (rk.foldl (roundEnc F) (leftHalf X, rightHalf X)) := List.foldlM_pure
  exact congrArg (Except.map fun p => p.1 ++ p.2) hrounds

/-- `FeistelDecrypt` does not fail where its round transform does not (R124). -/
theorem feistelDecryptE_ok (F : BitVec h → RK → BitVec h) (rk : List RK) (Y : BitVec (h + h)) :
    feistelDecryptE (fun r k => .ok (F r k)) rk Y = .ok (feistelDecrypt F rk Y) := by
  have hrounds : rk.reverse.foldlM (fun p k => (.ok (roundDec F p k) : Except PrimFail _)) (leftHalf Y, rightHalf Y) =
      .ok (rk.reverse.foldl (roundDec F) (leftHalf Y, rightHalf Y)) := List.foldlM_pure
  exact congrArg (Except.map fun p => p.1 ++ p.2) hrounds

/-- A fold is undone by folding, over the reversed list, steps that each undo one of its own. -/
theorem foldl_reverse_foldl_of_undoes {α β : Type} {f g : β → α → β} (hgf : ∀ p k, g (f p k) k = p) (l : List α)
    (p : β) : l.reverse.foldl g (l.foldl f p) = p := by
  induction l generalizing p with
  | nil => rfl
  | cons k ks ih =>
    rw [List.reverse_cons, List.foldl_append, List.foldl_cons (l := ks), ih]
    exact hgf p k

/-- Decryption undoes encryption with the same keys (R123). -/
theorem feistelDecrypt_feistelEncrypt (F : BitVec h → RK → BitVec h) (rk : List RK) (X : BitVec (h + h)) :
    feistelDecrypt F rk (feistelEncrypt F rk X) = X := by
  simp only [feistelDecrypt, feistelEncrypt, leftHalf_append, rightHalf_append]
  rw [foldl_reverse_foldl_of_undoes (roundDec_roundEnc F), leftHalf_append_rightHalf]

/-- Encryption undoes decryption with the same keys (R123). -/
theorem feistelEncrypt_feistelDecrypt (F : BitVec h → RK → BitVec h) (rk : List RK) (Y : BitVec (h + h)) :
    feistelEncrypt F rk (feistelDecrypt F rk Y) = Y := by
  simp only [feistelDecrypt, feistelEncrypt, leftHalf_append, rightHalf_append]
  have hundo := foldl_reverse_foldl_of_undoes (roundEnc_roundDec F) rk.reverse (leftHalf Y, rightHalf Y)
  rw [List.reverse_reverse] at hundo
  rw [hundo, leftHalf_append_rightHalf]

/-- Settles O49: a transform that does not fail is a total one, whose rounds undo each other one by one. -/
theorem feistelInversion : Obligations.FeistelInversion := by
  unfold Obligations.FeistelInversion
  intro h RK F rk X hF
  choose G hG using hF
  obtain rfl : F = fun r k => .ok (G r k) := by
    funext r k
    exact hG r k
  simp only [feistelEncryptE_ok, feistelDecryptE_ok]
  exact ⟨⟨_, rfl, congrArg _ (feistelDecrypt_feistelEncrypt G rk X)⟩,
    ⟨_, rfl, congrArg _ (feistelEncrypt_feistelDecrypt G rk X)⟩⟩

/-! ### The builds (R127, R128) -/

/-- One round of a direction (R121, R122). -/
def roundOf (F : BitVec h → RK → BitVec h) : Dir → BitVec h × BitVec h → RK → BitVec h × BitVec h
  | .enc => roundEnc F
  | .dec => roundDec F

/-- The round keys in the order a direction uses them: ascending or descending (R129). -/
def keysInOrder (rk : List RK) : Dir → List RK
  | .enc => rk
  | .dec => rk.reverse

/-- In either direction every round key is used once. -/
@[simp] theorem keysInOrder_length (rk : List RK) (d : Dir) : (keysInOrder rk d).length = rk.length := by
  cases d with
  | enc => rfl
  | dec => exact List.length_reverse

/-- The unrolled build performs the rounds of its direction on the keys in that direction's order (R128). -/
theorem feistelUnrolled_eq_foldl (F : BitVec h → RK → BitVec h) (rk : List RK) (d : Dir) (X : BitVec (h + h)) :
    feistelUnrolled F rk d X =
      let p := (keysInOrder rk d).foldl (roundOf F d) (leftHalf X, rightHalf X)
      p.1 ++ p.2 := by
  cases d <;> rfl

/-- The working registers of the iterative build after i of N rounds have left the halves p (R127). -/
def fiAfter (d : Dir) (N i : Nat) (p : BitVec h × BitVec h) : FeistelWork h where
  fiL := p.1
  fiR := p.2
  fiRound := match d with
    | .enc => i
    | .dec => N - 1 - i

/-- A start leaves the halves of the block after no round. -/
theorem fiStart_eq_fiAfter (d : Dir) (N : Nat) (X : BitVec (h + h)) :
    fiStart d N X = fiAfter d N 0 (leftHalf X, rightHalf X) := by
  cases d <;> rfl

/-- After i rounds the round index points at the next key in the direction's order. -/
theorem getElem?_fiAfter_fiRound {rk : List RK} (d : Dir) {i : Nat} (p : BitVec h × BitVec h) (hi : i < rk.length) :
    rk[(fiAfter d rk.length i p).fiRound]? = (keysInOrder rk d)[i]? := by
  cases d with
  | enc => rfl
  | dec => exact (List.getElem?_reverse hi).symm

/-- A step of the iterative build performs the next round of its direction. -/
theorem fiStep_fiAfter (F : BitVec h → RK → BitVec h) {rk : List RK} (d : Dir) {i : Nat} (p : BitVec h × BitVec h)
    (hi : i < (keysInOrder rk d).length) :
    fiStep F rk d (fiAfter d rk.length i p) = fiAfter d rk.length (i + 1) (roundOf F d p (keysInOrder rk d)[i]) := by
  have hkey := getElem?_fiAfter_fiRound d p (keysInOrder_length rk d ▸ hi)
  rw [List.getElem?_eq_getElem hi] at hkey
  unfold fiStep
  rw [hkey]
  cases d <;> rfl

/-- After i steps the iterative build has performed the first i rounds of its direction. -/
theorem repeat_fiStep_fiStart (F : BitVec h → RK → BitVec h) (rk : List RK) (d : Dir) (X : BitVec (h + h)) {i : Nat}
    (hi : i ≤ (keysInOrder rk d).length) :
    Nat.repeat (fiStep F rk d) i (fiStart d rk.length X) =
      fiAfter d rk.length i (((keysInOrder rk d).take i).foldl (roundOf F d) (leftHalf X, rightHalf X)) := by
  induction i with
  | zero => exact fiStart_eq_fiAfter d rk.length X
  | succ i ih =>
    rw [Nat.repeat, ih (Nat.le_of_lt hi), fiStep_fiAfter F d _ hi, ← List.take_append_getElem hi, List.foldl_append]
    rfl

/-- The iterative and the unrolled build compute the same function (R128). -/
theorem feistelIterative_eq_feistelUnrolled (F : BitVec h → RK → BitVec h) (rk : List RK) (d : Dir) (X : BitVec (h + h)) :
    feistelIterative F rk d X = feistelUnrolled F rk d X := by
  have hlen := keysInOrder_length rk d
  rw [feistelIterative, repeat_fiStep_fiStart F rk d X hlen.ge, ← hlen, List.take_length, feistelUnrolled_eq_foldl]
  rfl

/-- Either build computes what the unrolled one does (R128). -/
theorem feistelBuild_eq_feistelUnrolled (impl : FeistelImpl) (F : BitVec h → RK → BitVec h) (rk : List RK) (d : Dir)
    (X : BitVec (h + h)) : feistelBuild impl F rk d X = feistelUnrolled F rk d X := by
  cases impl with
  | iterative => exact feistelIterative_eq_feistelUnrolled F rk d X
  | unrolled => rfl

/-- Settles O50: each build is the unrolled one, which is the sequential definition of its direction. -/
theorem bothBuildsComputeTheFunction : Obligations.BothBuildsComputeTheFunction := by
  unfold Obligations.BothBuildsComputeTheFunction
  intro impl h RK F rk X
  simp only [feistelBuild_eq_feistelUnrolled]
  exact ⟨feistelEncryptE_ok F rk X, feistelDecryptE_ok F rk X⟩

end Sys2Proof.Machine

/-! SUPPORT. The DES key schedule (spec/42_des_key_schedule.md): a rotation after a rotation, each round key as one rotation
of the halves of PC1, and the SETKEY of a DES key; then the statements about the schedule. -/

namespace Sys2Proof.Machine

/-! ### Rotations -/

/-- Rotating by a and then by b is rotating by a + b. -/
theorem rotateLeft_rotateLeft {w : Nat} (x : BitVec w) (a b : Nat) :
    (x.rotateLeft a).rotateLeft b = x.rotateLeft (a + b) := by
  apply BitVec.eq_of_getMsbD_eq
  intro i hi
  have hmod : (b + i) % w < w := Nat.mod_lt _ (by omega)
  have hsum : (a + (b + i) % w) % w = (a + b + i) % w := by rw [Nat.add_mod_mod, Nat.add_assoc]
  simp only [BitVec.getMsbD_rotateLeft, hi, hmod, hsum, decide_true, Bool.true_and]

/-- A rotation through the full width changes nothing. -/
theorem rotateLeft_width {w : Nat} (x : BitVec w) : x.rotateLeft w = x := by
  apply BitVec.eq_of_getMsbD_eq
  intro i hi
  rw [BitVec.getMsbD_rotateLeft, decide_eq_true hi, Bool.true_and, Nat.add_mod_left, Nat.mod_eq_of_lt hi]

/-! ### The round keys (R142) -/

/-- The round key of the halves C and D rotated by a total amount. -/
def rotatedKey (C D : BitVec 28) (total : Nat) : DesKey48 := pc2 (C.rotateLeft total ++ D.rotateLeft total)

/-- The rotation is cumulative: a round's halves are those of the start, rotated by the amounts up to that round. -/
theorem subkeys_getElem (shifts : List Nat) (C D : BitVec 28) (r : Nat) (hr : r < (subkeys shifts C D).length) :
    (subkeys shifts C D)[r] = rotatedKey C D (shifts.take (r + 1)).sum := by
  induction shifts generalizing C D r with
  | nil => simp [subkeys] at hr
  | cons n ns ih =>
    cases r with
    | zero => simp [subkeys, rotatedKey]
    | succ r => simp [subkeys, ih, rotatedKey, rotateLeft_rotateLeft]

/-- A round key of the schedule is the halves of PC1 rotated by the amounts up to its round, through PC2. -/
theorem desSchedule_getElem (k : Block64) (r : Nat) (hr : r < 16) :
    (desSchedule k)[r] =
      rotatedKey ((pc1 k).extractLsb' 28 28) ((pc1 k).extractLsb' 0 28) (shiftTable.take (r + 1)).sum :=
  subkeys_getElem shiftTable _ _ r (by rw [subkeys_length]; exact hr)

/-- Once each half has turned through its full width, the round key is PC2 of the string they are the halves of. -/
theorem rotatedKey_full_turn (cd : BitVec 56) : rotatedKey (cd.extractLsb' 28 28) (cd.extractLsb' 0 28) 28 = pc2 cd := by
  rw [rotatedKey, rotateLeft_width, rotateLeft_width,
    BitVec.extractLsb'_append_extractLsb'_eq_extractLsb' (show 28 = 0 + 28 from rfl), BitVec.extractLsb'_eq_self]

/-- Settles O51: the amounts and their sum are read off the table, the round keys are cumulative rotations of the halves of
PC1, and the last of them is a full turn. -/
theorem desRoundKeysAreCumulativeRotations : Obligations.DesRoundKeysAreCumulativeRotations := by
  unfold Obligations.DesRoundKeysAreCumulativeRotations
  have hamount : ∀ r ≤ 16, 1 ≤ r → shiftTable[r - 1]? = some (if r ∈ [1, 2, 9, 16] then 1 else 2) := by decide
  have hsum : shiftTable.sum = 28 := by decide
  have hlast (k : Block64) : (desSchedule k)[15] = pc2 (pc1 k) := by
    have htotal : (shiftTable.take (15 + 1)).sum = 28 := by decide
    rw [desSchedule_getElem k 15 (by decide), htotal, rotatedKey_full_turn]
  exact ⟨fun r h1 h16 => hamount r h16 h1, hsum, hlast, desSchedule_getElem⟩

/-! ### Parity (R144) -/

/-- PC1 names no parity bit, so keys that differ in those alone have the same PC1 (R106). -/
theorem pc1_congr {k k' : Block64} (h : ∀ i < 64, i % 8 ≠ 7 → k.getMsbD i = k'.getMsbD i) : pc1 k = pc1 k' := by
  have hnames : ∀ t ∈ pc1Table, t - 1 < 64 ∧ (t - 1) % 8 ≠ 7 := by decide
  refine wire_congr k k' pc1Table fun t ht => ?_
  obtain ⟨hlt, hparity⟩ := hnames t ht
  exact h (t - 1) hlt hparity

/-- The schedule examines PC1 of the key and nothing else of it. -/
theorem desSchedule_congr {k k' : Block64} (h : pc1 k = pc1 k') : desSchedule k = desSchedule k' :=
  Vector.ext fun r hr => by rw [desSchedule_getElem k r hr, desSchedule_getElem k' r hr, h]

/-- SETKEY of an 8-byte DES key stores its schedule, with no look at the key (R141, R231). -/
theorem setkeyResult_of_des {s : State} (halg : s.cfgAlg = .des) (hlen : s.cfgKeylen = 8) :
    setkeyResult s = .ok { s with rkDes := desSchedule (packBytes 64 s.keyOperand), kvd := true } := by
  have hkey : s.keyOperand.length = 8 := by rw [State.keyOperand_length (by omega), hlen]
  simp only [setkeyResult, halg, hlen, desKeySchedule, hkey, ne_eq, not_true_eq_false, if_false, if_true]

/-- Settles O52: PC1 drops the parity bits, and SETKEY of an 8-byte DES key succeeds whatever stands in KEYBUF. -/
theorem parityBitsAreIgnored : Obligations.ParityBitsAreIgnored := by
  unfold Obligations.ParityBitsAreIgnored
  refine ⟨fun k k' h => desSchedule_congr (pc1_congr h), fun s b halg hlen => ?_⟩
  have hresult := setkeyResult_of_des (s := { s with keybuf := b }) halg hlen
  rw [exec_eq_finish_execResult, execResult, hresult]
  exact ⟨_, rfl, rfl, rfl⟩

end Sys2Proof.Machine

/-! SUPPORT. The DES round function (spec/43_des_round_function.md): the substitution step, and what complementing the input
does to a wired permutation, to a Feistel network, to the round keys and to a round; then the statements about it. -/

namespace Sys2Proof.Machine

/-! ### The substitution step (R164, R166) -/

/-- Every row of the S-box ROM holds each nibble once (R164). -/
theorem sboxAt_row_perm :
    ∀ k < 8, ∀ row < 4, ((List.range 16).map fun col => (sboxAt k row col).toNat).Perm (List.range 16) := by
  decide

/-- The exposed substitution step answers what the round function computes, on 48 bits (R165). -/
@[simp] theorem substituteStep_of_width (x : BitVec 48) : substituteStep x = .ok (substitute x) := rfl

/-- The exposed substitution step fails with WIDTH on any other length (R166). -/
theorem substituteStep_of_ne {n : Nat} (x : BitVec n) (hn : n ≠ 48) : substituteStep x = .error .width :=
  dif_neg hn

/-- Settles O53: the rows are read off the ROM, and the step branches on the width alone. -/
theorem substitutionRomAndWidth : Obligations.SubstitutionRomAndWidth := by
  unfold Obligations.SubstitutionRomAndWidth
  refine ⟨sboxAt_row_perm, fun n x => ⟨?_, substituteStep_of_ne x⟩, substituteStep_of_width⟩
  rintro hwidth rfl
  rw [substituteStep_of_width] at hwidth
  cases hwidth

/-! ### Complements of bit strings and through a wired permutation -/

/-- Rotation moves bits and complements none. -/
theorem rotateLeft_not {w : Nat} (x : BitVec w) (a : Nat) : (~~~x).rotateLeft a = ~~~x.rotateLeft a := by
  apply BitVec.eq_of_getMsbD_eq
  intro i hi
  have hmod : (a + i) % w < w := Nat.mod_lt _ (by omega)
  simp only [BitVec.getMsbD_rotateLeft, BitVec.getMsbD_not, hi, hmod, decide_true, Bool.true_and]

/-- A piece that ends within the string is complemented with it; the library's `extractLsb'_not_of_lt` leaves out the piece
that reaches the most significant bit. -/
theorem extractLsb'_not_of_le {w : Nat} (x : BitVec w) {start len : Nat} (hle : start + len ≤ w) :
    (~~~x).extractLsb' start len = ~~~x.extractLsb' start len := by
  apply BitVec.eq_of_getLsbD_eq
  intro i hi
  have hin : start + i < w := by omega
  simp only [BitVec.getLsbD_extractLsb', BitVec.getLsbD_not, hi, hin, decide_true, Bool.true_and]

/-- An exclusive-or cancels a complement of both its operands. -/
theorem not_xor_not {w : Nat} (x y : BitVec w) : ~~~x ^^^ ~~~y = x ^^^ y := by
  rw [← BitVec.not_xor_left, ← BitVec.not_xor_right, BitVec.not_not]

/-- A wired permutation whose entries name input bits complements its output with its input. -/
theorem wire_not {n : Nat} (x : BitVec n) {T : List Nat} (hT : ∀ t ∈ T, t - 1 < n) : wire (~~~x) T = ~~~wire x T := by
  apply BitVec.eq_of_getMsbD_eq
  intro j hj
  have hsource : T[j] - 1 < n := hT _ (List.getElem_mem hj)
  simp only [BitVec.getMsbD_not, wire_getMsbD _ T j hj, hsource, hj, decide_true, Bool.true_and]

/-- The wired permutations of DES have tables in range (R106 to R108). -/
@[simp] theorem pc1_not (k : Block64) : pc1 (~~~k) = ~~~pc1 k := wire_not k (by decide)

@[simp] theorem pc2_not (cd : BitVec 56) : pc2 (~~~cd) = ~~~pc2 cd := wire_not cd (by decide)

@[simp] theorem expandE_not (r : BitVec 32) : expandE (~~~r) = ~~~expandE r := wire_not r (by decide)

/-! ### Complements through the key schedule and the round function -/

/-- The round key of complemented halves is the complement. -/
theorem rotatedKey_not (C D : BitVec 28) (total : Nat) : rotatedKey (~~~C) (~~~D) total = ~~~rotatedKey C D total := by
  rw [rotatedKey, rotateLeft_not, rotateLeft_not, ← BitVec.not_append]
  exact pc2_not _

/-- The complemented key has the complemented round keys. -/
theorem desSchedule_not (k : Block64) : desSchedule (~~~k) = (desSchedule k).map (~~~ ·) := by
  apply Vector.ext
  intro r hr
  rw [Vector.getElem_map, desSchedule_getElem _ r hr, desSchedule_getElem _ r hr, pc1_not,
    extractLsb'_not_of_le _ (by decide), extractLsb'_not_of_le _ (by decide), rotatedKey_not]

/-- The round function does not see a complement of both its operands: they meet in an exclusive-or (R160). -/
theorem desF_not (R : BitVec 32) (K : DesKey48) : desF (~~~R) (~~~K) = desF R K := by
  rw [desF, expandE_not, not_xor_not, desF]

/-! ### Complements through a Feistel network -/

section
variable {h : Nat} {RK : Type} {F : BitVec h → RK → BitVec h} {c : RK → RK}

theorem leftHalf_not (X : BitVec (h + h)) : leftHalf (~~~X) = ~~~leftHalf X :=
  extractLsb'_not_of_le X (Nat.le_refl _)

theorem rightHalf_not (X : BitVec (h + h)) : rightHalf (~~~X) = ~~~rightHalf X :=
  extractLsb'_not_of_le X (by omega)

/-- The complement of both halves. -/
def notHalves (p : BitVec h × BitVec h) : BitVec h × BitVec h := (~~~p.1, ~~~p.2)

/-- A round whose transform does not see a complement of half and key complements its halves with them. -/
theorem roundEnc_not (hF : ∀ r k, F (~~~r) (c k) = F r k) (p : BitVec h × BitVec h) (k : RK) :
    roundEnc F (notHalves p) (c k) = notHalves (roundEnc F p k) := by
  simp only [roundEnc, notHalves, hF, BitVec.not_xor_left]

/-- Rounds whose transform does not see a complement of half and key complement the block with the keys. -/
theorem feistelEncrypt_not (hF : ∀ r k, F (~~~r) (c k) = F r k) (rk : List RK) (X : BitVec (h + h)) :
    feistelEncrypt F (rk.map c) (~~~X) = ~~~feistelEncrypt F rk X := by
  have hrounds : (rk.map c).foldl (roundEnc F) (notHalves (leftHalf X, rightHalf X)) =
      notHalves (rk.foldl (roundEnc F) (leftHalf X, rightHalf X)) := by
    rw [List.foldl_map]
    exact List.foldl_hom notHalves (roundEnc_not hF)
  simp only [notHalves] at hrounds
  simp only [feistelEncrypt, leftHalf_not, rightHalf_not, hrounds, BitVec.not_append]

end

/-- Settles O54: complementing the key complements every round key, which the round function does not see beside a
complemented half, so the rounds carry the complement of the block through. -/
theorem desComplementation : Obligations.DesComplementation := by
  unfold Obligations.DesComplementation
  intro k x
  rw [desEncrypt, desSchedule_not, Vector.toList_map, feistelEncrypt_not desF_not, desEncrypt]

end Sys2Proof.Machine

/-! SUPPORT. The DEAL round engine (spec/44_deal_round_engine.md): the bytes of a packed string and of a window of the
master key, and the rounds with the internal DES re-keyed in each; then the statements about DEAL. -/

namespace Sys2Proof.Machine

/-! ### The key schedule (R180 to R183) -/

/-- Byte j of a packed byte string is byte j of the string, zero where the string has ended (R9). -/
theorem byteAt_packBytes {m : Nat} (B : List Byte) {j : Nat} (hj : j < m) :
    byteAt (packBytes (8 * m) B) j = B.getD j 0#8 := by
  apply BitVec.eq_of_getLsbD_eq
  intro i hi
  have hbyte : m - 1 - (8 * m - 8 * (j + 1) + i) / 8 = j := by omega
  have hbit : (8 * m - 8 * (j + 1) + i) % 8 = i := by omega
  rw [byteAt, BitVec.getLsbD_extractLsb', packBytes, packBytes_fold_getLsbD _ _ _ _ (by omega), if_pos (by omega),
    Nat.mul_div_cancel_left m (by decide), hbyte, hbit, decide_eq_true hi, Bool.true_and]

/-- The round count of an accepted key length (R180). -/
theorem dealRounds_of_mem {L nr : Nat} (h : (L, nr) ∈ [(16, 6), (24, 8), (32, 12)]) : dealRounds L = some nr := by
  have hrows : ∀ p ∈ [(16, 6), (24, 8), (32, 12)], dealRounds p.1 = some p.2 := by decide
  exact hrows _ h

/-- A key of any other length has no round count (R180). -/
theorem dealRounds_of_not_mem {L : Nat} (h : L ∉ [16, 24, 32]) : dealRounds L = none := by
  cases hrounds : dealRounds L with
  | none => rfl
  | some nr => exact absurd (List.mem_map_of_mem (f := Prod.fst) (dealRounds_eq_some hrounds)) h

/-- The schedule of a key whose length has a round count: one packed window for each round (R181). -/
theorem dealKeySchedule_of_rounds {MK : List Byte} {nr : Nat} (h : dealRounds MK.length = some nr) :
    dealKeySchedule MK = .ok ((List.range nr).map fun i => packBytes 64 (dealWindow MK i)) := by
  rw [dealKeySchedule, h]

/-- A key whose length has no round count fails with KEY_LEN (R183). -/
theorem dealKeySchedule_of_no_rounds {MK : List Byte} (h : dealRounds MK.length = none) :
    dealKeySchedule MK = .error .keyLen := by
  rw [dealKeySchedule, h]

/-- In a master key of n whole 8-byte groups every window is a group: the zero padding of R181 is never taken (R182). -/
theorem dealWindow_of_whole_groups {MK : List Byte} {n : Nat} (hn : 0 < n) (hlen : MK.length = 8 * n) (i : Nat) :
    dealWindow MK i = (MK.drop (8 * (i % n))).take 8 := by
  have hgroup : i % n < n := Nat.mod_lt i hn
  have hfull : ((MK.drop (8 * (i % n))).take 8).length = 8 := by
    rw [List.length_take, List.length_drop, hlen]
    omega
  rw [dealWindow, hlen, Nat.mul_mod_mul_left, hfull, List.replicate_zero, List.append_nil]

/-- The bytes of a round key of such a master key are those of its group (R182). -/
theorem byteAt_packed_dealWindow {MK : List Byte} {n : Nat} (hn : 0 < n) (hlen : MK.length = 8 * n) (i : Nat) {j : Nat}
    (hj : j < 8) : some (byteAt (packBytes 64 (dealWindow MK i)) j) = MK[8 * (i % n) + j]? := by
  have hgroup : i % n < n := Nat.mod_lt i hn
  have hin : 8 * (i % n) + j < MK.length := by omega
  rw [byteAt_packBytes (m := 8) _ hj, dealWindow_of_whole_groups hn hlen, List.getD_eq_getElem?_getD,
    List.getElem?_take_of_lt hj, List.getElem?_drop, List.getElem?_eq_getElem hin, Option.getD_some]

/-- Settles O55: each accepted length is a number of whole 8-byte groups, so every window is one of them. -/
theorem dealScheduleWindows : Obligations.DealScheduleWindows := by
  unfold Obligations.DealScheduleWindows
  intro MK
  constructor
  · intro nr hrow
    have hgroups : ∀ p ∈ [(16, 6), (24, 8), (32, 12)], 0 < p.1 / 8 ∧ p.1 = 8 * (p.1 / 8) := by decide
    obtain ⟨hn, hlen⟩ := hgroups _ hrow
    refine ⟨_, dealKeySchedule_of_rounds (dealRounds_of_mem hrow), by rw [List.length_map, List.length_range], ?_⟩
    intro i hi j hj
    rw [List.getElem?_map, List.getElem?_range hi]
    exact byteAt_packed_dealWindow hn hlen i hj
  · intro hother
    exact dealKeySchedule_of_no_rounds (dealRounds_of_not_mem hother)

/-! ### The re-keyed rounds (R185, R187, R188) -/

/-- A round re-keys the internal DES, so the schedule left after all rounds is that of the last key, whatever was there
before the first. -/
theorem innerAfterEnc_cons (k : Block64) (rk : List Block64) (inner : DesSchedule) :
    innerAfterEnc (k :: rk) inner = innerAfterEnc rk (desSchedule k) := by
  unfold innerAfterEnc
  rw [List.getLast?_cons]
  cases rk.getLast? <;> rfl

/-- Decryption uses the keys in descending order, so what it leaves is what encryption leaves on the reversed keys. -/
theorem innerAfterEnc_reverse (rk : List Block64) (inner : DesSchedule) :
    innerAfterEnc rk.reverse inner = innerAfterDec rk inner := by
  rw [innerAfterEnc, List.getLast?_reverse, innerAfterDec]

/-- DEAL's working state from its internal schedule and the pair of halves. -/
def dealWorkOf (inner : DesSchedule) (p : Block64 × Block64) : DealWork where
  inner := inner
  L := p.1
  R := p.2

/-- A re-keyed encryption round performs the encryption round of `dealF` and leaves the schedule of its key. -/
theorem dealRekeyRoundEnc_dealWorkOf (inner : DesSchedule) (p : Block64 × Block64) (k : Block64) :
    dealRekeyRoundEnc (dealWorkOf inner p) k = dealWorkOf (desSchedule k) (roundEnc dealF p k) := rfl

/-- A re-keyed decryption round performs the decryption round of `dealF` and leaves the schedule of its key. -/
theorem dealRekeyRoundDec_dealWorkOf (inner : DesSchedule) (p : Block64 × Block64) (k : Block64) :
    dealRekeyRoundDec (dealWorkOf inner p) k = dealWorkOf (desSchedule k) (roundDec dealF p k) := rfl

/-- Rounds that each re-key the internal DES perform their rounds on the halves and leave the schedule of the last key. -/
theorem foldl_dealWorkOf {rekeyRound : DealWork → Block64 → DealWork}
    {round : Block64 × Block64 → Block64 → Block64 × Block64}
    (hround : ∀ inner p k, rekeyRound (dealWorkOf inner p) k = dealWorkOf (desSchedule k) (round p k))
    (rk : List Block64) (inner : DesSchedule) (p : Block64 × Block64) :
    rk.foldl rekeyRound (dealWorkOf inner p) = dealWorkOf (innerAfterEnc rk inner) (rk.foldl round p) := by
  induction rk generalizing inner p with
  | nil => rfl
  | cons k ks ih => rw [List.foldl_cons, List.foldl_cons, hround, ih, innerAfterEnc_cons]

/-- What DEAL delivers of its working state: the internal schedule and the block of the two halves. -/
def DealWork.delivered (w : DealWork) : DesSchedule × Block128 := (w.inner, w.L ++ w.R)

/-- DEAL encryption with the internal DES threaded: the re-keyed rounds from the halves of the block, keys ascending. -/
theorem dealRekeying_enc (inner : DesSchedule) (rk : List Block64) (X : Block128) :
    dealRekeying .enc inner rk X =
      (rk.foldl dealRekeyRoundEnc (dealWorkOf inner (leftHalf (h := 64) X, rightHalf (h := 64) X))).delivered := rfl

/-- DEAL decryption with the internal DES threaded: the re-keyed rounds from the halves of the block, keys descending. -/
theorem dealRekeying_dec (inner : DesSchedule) (rk : List Block64) (Y : Block128) :
    dealRekeying .dec inner rk Y =
      (rk.reverse.foldl dealRekeyRoundDec (dealWorkOf inner (leftHalf (h := 64) Y, rightHalf (h := 64) Y))).delivered := rfl

/-- Settles O56: a re-keyed round is a round of `dealF` that leaves the schedule of its key, so the rounds in sequence are
the Feistel rounds and leave the schedule of the last key used. -/
theorem dealRekeyingGivesTheCipher : Obligations.DealRekeyingGivesTheCipher := by
  unfold Obligations.DealRekeyingGivesTheCipher
  intro inner rk X
  constructor
  · rw [dealRekeying_enc, foldl_dealWorkOf dealRekeyRoundEnc_dealWorkOf]
    rfl
  · rw [dealRekeying_dec, foldl_dealWorkOf dealRekeyRoundDec_dealWorkOf, innerAfterEnc_reverse]
    rfl

end Sys2Proof.Machine

/-! SUPPORT. The mode_controller (spec/45_mode_controller.md): what opens and closes a session, the two rows of each mode on
one block, and a run of blocks in one direction undone by the other; then the statements about the controller. -/

namespace Sys2Proof.Machine

/-! ### Opening and closing a session (R200) -/

/-- The next input takes the reset pin to its level (R330). -/
theorem step_of_pin {s : State} {l : Bool} {rest : List Input} (h : s.inputs = .pin l :: rest) :
    step s = .next (State.setPin { s with inputs := rest } l) := by
  rw [step, move, h]

/-- The reset pin opens no session (R330, R331). -/
theorem setPin_sess_of_closed {s : State} (l : Bool) (h : s.sess = false) : (s.setPin l).sess = false := by
  rcases setPin_cases s l with hreset | ⟨-, -, hkept⟩
  · rw [hreset]
    rfl
  · rw [hkept, h]

/-- A command that opens a session is MODE_INIT (R200, R201). -/
theorem Effect.opens_session {s s' : State} {i : Instr} (h : Effect s i s') (hclosed : s.sess = false)
    (hopen : s'.sess = true) : i = .modeInit := by
  cases h with
  | modeInit => rfl
  | modeClear | softreset => cases hopen
  | nop | setkeyDes | setkeyDeal | encrypt | decrypt | modeEnc | modeDec =>
    exact absurd (hclosed.symm.trans hopen) Bool.false_ne_true

/-- A command that closes a session is MODE_CLEAR or SOFTRESET (R200, R203). -/
theorem Effect.closes_session {s s' : State} {i : Instr} (h : Effect s i s') (hopen : s.sess = true)
    (hclosed : s'.sess = false) : i = .modeClear ∨ i = .softreset := by
  cases h with
  | modeClear => exact .inl rfl
  | softreset => exact .inr rfl
  | modeInit => cases hclosed
  | nop | setkeyDes | setkeyDeal | encrypt | decrypt | modeEnc | modeDec =>
    exact absurd (hclosed.symm.trans hopen) Bool.false_ne_true

/-- Settles O42: a step that is no pin change keeps the session or leaves the one of the pending command's effect, and a pin
change opens none. -/
theorem sessionTransitions : Obligations.SessionTransitions := by
  unfold Obligations.SessionTransitions
  intro s t h
  rcases step_change_cases h with hsame | ⟨l, rest, hin⟩ | ⟨rest, i, s', hnext, hr, hp, heffect, rfl⟩
  · refine ⟨fun hclosed hopen => ?_, fun hopen hclosed => ?_⟩
    · exact absurd (hclosed.symm.trans (hsame.sess.symm.trans hopen)) Bool.false_ne_true
    · exact absurd (hclosed.symm.trans (hsame.sess.trans hopen)) Bool.false_ne_true
  · refine ⟨fun hclosed hopen => ?_, fun _ _ => .inl ⟨l, rest, hin⟩⟩
    rw [step_of_pin hin] at h
    cases h
    exact absurd ((setPin_sess_of_closed (s := { s with inputs := rest }) l hclosed).symm.trans hopen) Bool.false_ne_true
  · refine ⟨fun hclosed hopen => ?_, fun hopen hclosed => .inr ⟨hnext, hr, ?_⟩⟩
    · obtain rfl := heffect.opens_session hclosed hopen
      exact ⟨hnext, hr, hp, rfl⟩
    · rcases heffect.closes_session hopen hclosed with rfl | rfl
      · exact .inl hp
      · exact .inr hp

/-! ### The rows of the modes (R205 to R211) -/

section Rows
variable {n : Nat} (E Einv : BitVec n → BitVec n) (D X CV : BitVec n)

/-- The row of CTR is the same in both directions (R210). -/
theorem chain_ctr (d : Dir) : chain d .ctr E Einv D X CV = ⟨X ^^^ E CV, CV + 1⟩ := by
  cases d <;> rfl

/-- The row of RandomDelta is the same in both directions (R211). -/
theorem chain_randomDelta (d : Dir) : chain d .randomDelta E Einv D X CV = ⟨X ^^^ E CV, CV + D⟩ := by
  cases d <;> rfl

/-- The counter of CTR goes up by one modulo the size of the block space (R11, R210). -/
theorem chain_ctr_toNat (d : Dir) : (chain d .ctr E Einv D X CV).CV.toNat = (CV.toNat + 1) % 2 ^ n := by
  simp [chain_ctr, BitVec.toNat_add]

/-- The counter of RandomDelta goes up by the session's delta modulo the size of the block space (R11, R211). -/
theorem chain_randomDelta_toNat (d : Dir) :
    (chain d .randomDelta E Einv D X CV).CV.toNat = (CV.toNat + D.toNat) % 2 ^ n := by
  rw [chain_randomDelta, BitVec.toNat_add]

end Rows

/-- Settles O33: the rows of the first five modes are the model's equations, and the two counters are sums of blocks. -/
theorem modeEquations : Obligations.ModeEquations := by
  unfold Obligations.ModeEquations
  intro n E Einv D X CV
  refine ⟨rfl, rfl, rfl, rfl, rfl, rfl, rfl, rfl, rfl, rfl, fun d => ⟨?_, ?_⟩, fun d => ⟨?_, ?_⟩⟩
  · rw [chain_ctr]
  · exact chain_ctr_toNat E Einv D X CV d
  · rw [chain_randomDelta]
  · exact chain_randomDelta_toNat E Einv D X CV d

/-! ### The round trip (R212) -/

section RoundTrip
variable {n : Nat} {E Einv : BitVec n → BitVec n} (hinv : ∀ x, Einv (E x) = x)
include hinv

/-- The decrypt row on the block the encrypt row gave, from the same chaining value, gives the plaintext block and the same
new chaining value: ECB, CBC and PCBC by the inverse cipher, the other modes because a key stream added twice cancels. -/
theorem chain_dec_chain_enc (m : Mode) (D X CV : BitVec n) :
    chain .dec m E Einv D (chain .enc m E Einv D X CV).Y CV = ⟨X, (chain .enc m E Einv D X CV).CV⟩ := by
  cases m with
  | ecb | cbc | pcbc => simp [chain, chainEnc, chainDec, hinv]
  | cfb | ofb | ctr | randomDelta => simp [chain, chainEnc, chainDec]

/-- Decrypting an encrypted run gives the plaintext blocks. -/
theorem chainRun_dec_chainRun_enc_Y (m : Mode) (D CV : BitVec n) (P : List (BitVec n)) :
    (chainRun .dec m E Einv D ((chainRun .enc m E Einv D P CV).map (·.Y)) CV).map (·.Y) = P := by
  induction P generalizing CV with
  | nil => rfl
  | cons X Xs ih => simp [chainRun, chain_dec_chain_enc hinv, ih]

/-- Decrypting an encrypted run passes through the chaining values of the encrypted run. -/
theorem chainRun_dec_chainRun_enc_CV (m : Mode) (D CV : BitVec n) (P : List (BitVec n)) :
    (chainRun .dec m E Einv D ((chainRun .enc m E Einv D P CV).map (·.Y)) CV).map (·.CV) =
      (chainRun .enc m E Einv D P CV).map (·.CV) := by
  induction P generalizing CV with
  | nil => rfl
  | cons X Xs ih => simp [chainRun, chain_dec_chain_enc hinv, ih]

end RoundTrip

/-- Settles O58: one block's decryption gives back the block and keeps the chaining values equal, so by induction every
block's does. -/
theorem modeRoundTrip : Obligations.ModeRoundTrip := by
  unfold Obligations.ModeRoundTrip
  intro n m E Einv D CV P hinv
  exact ⟨chainRun_dec_chainRun_enc_Y hinv m D CV P, chainRun_dec_chainRun_enc_CV hinv m D CV P⟩

end Sys2Proof.Machine

/-! SUPPORT. The command set (spec/46_commands.md): the completion a result or an error gives, the operands taken from the
buffers, and what each command's checks and execution answer; then the statements about the commands. -/

namespace Sys2Proof.Machine

/-! ### Completion (R303) -/

/-- A command whose execution leaves a state completes there with OK. -/
theorem exec_of_execResult_ok {i : Instr} {s s' : State} (h : execResult i s = .ok s') :
    exec i s = .next (s'.complete i.opc .ok) := by
  rw [exec_eq_finish_execResult, h, State.finish]

/-- A command whose execution fails completes with the error and changes nothing else (R305). -/
theorem exec_of_execResult_error {i : Instr} {s : State} {e : ErrCode} (h : execResult i s = .error e) :
    exec i s = .next (s.complete i.opc e) := by
  rw [exec_eq_finish_execResult, h, State.finish]

/-! ### Operands from the buffers (R61, R86) -/

/-- The first two words of a buffer are its first 8 bytes. -/
theorem wordAt_append_wordAt {n : Nat} (b : BitVec n) (hn : 64 ≤ n) :
    wordAt b 0 ++ wordAt b 1 = b.extractLsb' (n - 64) 64 :=
  BitVec.extractLsb'_append_extractLsb'_eq_extractLsb' (by omega)

/-- Zero fill keeps the 8-byte string in front (R202). -/
@[simp] theorem first8_zeroFill (b : Block64) : first8 (zeroFill b) = b := by
  rw [first8, zeroFill, BitVec.extractLsb'_append_eq_of_le (by decide), BitVec.extractLsb'_eq_self]

/-- DOUT shows DOUTBUF by words. -/
theorem hostRead_dout {s : State} {b : Block128} (h : s.doutbuf = b) (w : Fin 4) :
    s.hostRead (idxOf (.dout w)) = wordAt b w.val := by
  rw [hostRead_idxOf, State.readReg, h]

/-- CV shows CVBUF by words. -/
theorem hostRead_cv {s : State} {b : Block128} (h : s.cvbuf = b) (w : Fin 4) :
    s.hostRead (idxOf (.cv w)) = wordAt b w.val := by
  rw [hostRead_idxOf, State.readReg, h]

/-- The algorithm of a CFG word whose bit 0 is clear is DES (R23). -/
theorem State.cfgAlg_of_cfg {s : State} {c : BitVec 20} (hcfg : s.cfg = c) (hbit : c.extractLsb' 0 1 = 0#1) :
    s.cfgAlg = .des := by
  rw [State.cfgAlg, hcfg, if_pos hbit]

/-- DLEN of a given CFG word (R23). -/
theorem State.cfgDlen_of_cfg {s : State} {c : BitVec 20} (hcfg : s.cfg = c) :
    s.cfgDlen = (c.extractLsb' 15 5).toNat := by
  rw [State.cfgDlen, hcfg]

/-! ### NOP (R230) and SOFTRESET (R238) -/

/-- Settles O26: NOP leaves the state as it was before its completion, and from reset STATUS then shows DONE alone. -/
theorem nopOnlyCompletes : Obligations.NopOnlyCompletes := by
  unfold Obligations.NopOnlyCompletes
  refine ⟨fun s => rfl, ?_⟩
  rw [hostWrite_cmd 0x00000000#32 rfl]
  exact ⟨_, rfl, rfl⟩

/-- STATUS is zero after a reset, whatever the free contents of the stores are (R43). -/
theorem resetCore_statusWord (s : State) : s.resetCore.statusWord = 0#32 :=
  have hreset : s.resetCore.statusWord = State.reset.statusWord := rfl
  hreset.trans (by decide)

/-- A reset leaves every element with a reset value at that value (R43, R330). -/
theorem resetCore_atReset (s : State) : s.resetCore.AtReset :=
  ⟨rfl, rfl, resetCore_statusWord s, rfl, rfl, rfl, rfl, rfl, rfl, rfl, rfl, rfl⟩

/-- SOFTRESET leaves what a reset leaves, completed (R332). -/
theorem exec_softreset (s : State) : exec .softreset s = .next (s.resetCore.complete 0x20#8 .ok) :=
  exec_of_execResult_ok rfl

/-- Settles O35: the elements with a reset value hold it, and the completion sets DONE and ECMD. -/
theorem softresetResetsEverything : Obligations.SoftresetResetsEverything := by
  unfold Obligations.SoftresetResetsEverything
  intro s
  have hstatus : (s.resetCore.complete 0x20#8 .ok).statusWord = (State.reset.complete 0x20#8 .ok).statusWord := rfl
  exact ⟨_, exec_softreset s, resetCore_atReset s, hstatus.trans (by decide), rfl, rfl, rfl, rfl⟩

/-! ### SETKEY (R231) -/

/-- Byte j of the key operand is byte j of KEYBUF (R86). -/
theorem State.keyOperand_getElem? {s : State} (h : s.cfgKeylen ≤ 32) {j : Nat} (hj : j < s.cfgKeylen) :
    s.keyOperand[j]? = some (byteAt s.keybuf j) := by
  rw [State.keyOperand, List.getElem?_take_of_lt hj, bytesOf, List.getElem?_map, List.getElem?_range (by omega),
    Option.map_some]

/-- Packing 8 bytes that stand in KEYBUF from byte q on gives that piece of KEYBUF (R61). -/
theorem packBytes_eq_keybuf_extract {s : State} {B : List Byte} {q : Nat} (hq : q + 8 ≤ 32)
    (hB : ∀ j < 8, B[j]? = some (byteAt s.keybuf (q + j))) :
    packBytes 64 B = s.keybuf.extractLsb' (256 - 8 * (q + 8)) 64 := by
  refine packBytes_eq_of_byteAt (m := 8) B _ fun j hj => ?_
  rw [List.getD_eq_getElem?_getD, hB j hj, Option.getD_some]
  exact (byteAt_extractLsb' s.keybuf 8 q j hj (by omega)).symm

/-- The DES key of an 8-byte operand is the front of KEYBUF. -/
theorem packBytes_keyOperand {s : State} (hlen : s.cfgKeylen = 8) :
    packBytes 64 s.keyOperand = s.keybuf.extractLsb' 192 64 :=
  packBytes_eq_keybuf_extract (q := 0) (by decide) fun j hj => by
    rw [Nat.zero_add, State.keyOperand_getElem? (by omega) (by omega)]

/-- The window of round i of a key of n whole 8-byte groups is group i mod n of KEYBUF (R182). -/
theorem packBytes_dealWindow_keyOperand {s : State} {n : Nat} (hn : 0 < n) (hlen : s.cfgKeylen = 8 * n)
    (hle : s.cfgKeylen ≤ 32) (i : Nat) :
    packBytes 64 (dealWindow s.keyOperand i) = s.keybuf.extractLsb' (256 - 64 * (i % n + 1)) 64 := by
  have hgroup : i % n < n := Nat.mod_lt i hn
  have hstart : 256 - 8 * (8 * (i % n) + 8) = 256 - 64 * (i % n + 1) := by omega
  rw [dealWindow_of_whole_groups hn ((State.keyOperand_length hle).trans hlen), ← hstart]
  refine packBytes_eq_keybuf_extract (by omega) fun j hj => ?_
  rw [List.getElem?_take_of_lt hj, List.getElem?_drop, State.keyOperand_getElem? hle (by omega)]

/-- SETKEY of a DEAL key of an accepted length stores one packed window for each round (R181, R231). -/
theorem setkeyResult_of_deal {s : State} {nr : Nat} (halg : s.cfgAlg = .deal) (hle : s.cfgKeylen ≤ 32)
    (hrounds : dealRounds s.cfgKeylen = some nr) :
    setkeyResult s = .ok
      { s with
        rkDeal := (List.range nr).map fun i => packBytes 64 (dealWindow s.keyOperand i)
        nrDeal := nr, dnr := BitVec.ofNat 4 nr, kvl := true } := by
  have hkey : dealRounds s.keyOperand.length = some nr := by rw [State.keyOperand_length hle, hrounds]
  simp only [setkeyResult, halg, hrounds, dealKeySchedule_of_rounds hkey]

/-- SETKEY of a key of any other length fails with KEY_LEN (R231). -/
theorem setkeyResult_of_illegal {s : State}
    (h : (s.cfgAlg = .des ∧ s.cfgKeylen ≠ 8) ∨ (s.cfgAlg = .deal ∧ s.cfgKeylen ∉ [16, 24, 32])) :
    setkeyResult s = .error .keyLen := by
  rcases h with ⟨halg, hlen⟩ | ⟨halg, hlen⟩
  · simp only [setkeyResult, halg, if_pos hlen]
  · simp only [setkeyResult, halg, dealRounds_of_not_mem hlen]

/-- The first round key of the worked key (the example of R231). -/
theorem desSchedule_workedKey_zero : (desSchedule 0x133457799BBCDFF1#64)[0] = 0x1B02EFFC7072#48 := by
  decide +kernel

/-- Settles O27: the key operand is the front of KEYBUF, whose 8-byte groups are the windows of a DEAL key. -/
theorem setkeyStoresTheSchedule : Obligations.SetkeyStoresTheSchedule := by
  unfold Obligations.SetkeyStoresTheSchedule
  have hdes (s : State) (halg : s.cfgAlg = .des) (hlen : s.cfgKeylen = 8) : exec .setkey s = .next
      (State.complete { s with rkDes := desSchedule (s.keybuf.extractLsb' 192 64), kvd := true } 0x01#8 .ok) :=
    exec_of_execResult_ok (by rw [execResult, setkeyResult_of_des halg hlen, packBytes_keyOperand hlen])
  refine ⟨hdes, fun s nr halg hrow => ?_, fun s hillegal => ?_, fun s halg hlen hword0 hword1 => ?_⟩
  · have hgroups : ∀ p ∈ [(16, 6), (24, 8), (32, 12)], 0 < p.1 / 8 ∧ p.1 = 8 * (p.1 / 8) ∧ p.1 ≤ 32 := by decide
    obtain ⟨hn, hlen, hle⟩ := hgroups _ hrow
    have hresult := setkeyResult_of_deal halg hle (dealRounds_of_mem hrow)
    simp only [packBytes_dealWindow_keyOperand hn hlen hle] at hresult
    exact exec_of_execResult_ok (i := .setkey) hresult
  · exact exec_of_execResult_error (i := .setkey) (setkeyResult_of_illegal hillegal)
  · refine ⟨_, hdes s halg hlen, rfl, ?_⟩
    have hkey : s.keybuf.extractLsb' 192 64 = 0x133457799BBCDFF1#64 := by
      rw [← wordAt_append_wordAt s.keybuf (by decide), hword0, hword1]
      decide
    rw [State.complete_rkDes, hkey, desSchedule_workedKey_zero]

/-! ### ENCRYPT and DECRYPT (R232, R233) -/

/-- A wrong DLEN is found first (R306). -/
theorem cipherCheck_of_blockLen {s : State} (h : s.cfgDlen ≠ blockSize s.cfgAlg) : cipherCheck s = .error .blockLen := by
  rw [cipherCheck, if_pos h]

/-- With the right DLEN a missing key is found (R306). -/
theorem cipherCheck_of_noKey {s : State} (hlen : s.cfgDlen = blockSize s.cfgAlg) (hkey : s.keyValid s.cfgAlg = false) :
    cipherCheck s = .error .noKey := by
  rw [cipherCheck, if_neg (not_not.mpr hlen), if_pos hkey]

/-- A block of 8 bytes and a DES key pass the checks of ENCRYPT and DECRYPT under DES. -/
theorem cipherCheck_of_des {s : State} (halg : s.cfgAlg = .des) (hlen : s.cfgDlen = 8) (hkey : s.kvd = true) :
    cipherCheck s = .ok .des :=
  cipherCheck_eq_ok.mpr (by rw [halg]; exact ⟨hlen, hkey, rfl⟩)

/-- A block of 16 bytes and a DEAL key pass them under DEAL. -/
theorem cipherCheck_of_deal {s : State} (halg : s.cfgAlg = .deal) (hlen : s.cfgDlen = 16) (hkey : s.kvl = true) :
    cipherCheck s = .ok .deal :=
  cipherCheck_eq_ok.mpr (by rw [halg]; exact ⟨hlen, hkey, rfl⟩)

/-- ENCRYPT and DECRYPT report the error of their checks and change nothing else. -/
theorem exec_cipherCommand_of_error {i : Instr} (hi : i = .encrypt ∨ i = .decrypt) {s : State} {e : ErrCode}
    (h : cipherCheck s = .error e) : exec i s = .next (s.complete i.opc e) := by
  apply exec_of_execResult_error
  rcases hi with rfl | rfl
  · rw [execResult, encryptResult, h]
  · rw [execResult, decryptResult, h]

/-- ENCRYPT that passes its checks writes the enciphered block, and the hidden schedule as the algorithm does. -/
theorem exec_encrypt_of_check {s : State} {a : Alg} (h : cipherCheck s = .ok a) :
    exec .encrypt s = .next (State.complete
      { s with doutbuf := s.cipherEnc a s.dinbuf, dealInnerRk := s.innerAfter a .enc } 0x02#8 .ok) :=
  exec_of_execResult_ok (by rw [execResult, encryptResult, h])

/-- DECRYPT that passes its checks writes the deciphered block, and the hidden schedule as the algorithm does. -/
theorem exec_decrypt_of_check {s : State} {a : Alg} (h : cipherCheck s = .ok a) :
    exec .decrypt s = .next (State.complete
      { s with doutbuf := s.cipherDec a s.dinbuf, dealInnerRk := s.innerAfter a .dec } 0x03#8 .ok) :=
  exec_of_execResult_ok (by rw [execResult, decryptResult, h])

/-- DES decryption undoes DES encryption under the same schedule (R123, R168). -/
theorem desDecrypt_desEncrypt (rk : DesSchedule) (X : Block64) : desDecrypt rk (desEncrypt rk X) = X :=
  feistelDecrypt_feistelEncrypt (h := 32) desF rk.toList X

/-- DEAL decryption undoes DEAL encryption under the same schedule (R123, R187). -/
theorem dealDecrypt_dealEncrypt (rk : List Block64) (X : Block128) : dealDecrypt rk (dealEncrypt rk X) = X :=
  feistelDecrypt_feistelEncrypt (h := 64) dealF rk X

/-- Deciphering what was enciphered with the stored key gives back the bytes of the block, zero-filled. -/
theorem State.cipherDec_cipherEnc (s : State) (a : Alg) (x : Block128) :
    s.cipherDec a (s.cipherEnc a x) = firstBlock a x := by
  cases a with
  | des => simp only [State.cipherDec, State.cipherEnc, first8_zeroFill, desDecrypt_desEncrypt, firstBlock]
  | deal => simp only [State.cipherDec, State.cipherEnc, dealDecrypt_dealEncrypt, firstBlock]

/-- The worked block under the worked key (the example of R232). -/
theorem desEncrypt_workedBlock :
    desEncrypt (desSchedule 0x133457799BBCDFF1#64) 0x0123456789ABCDEF#64 = 0x8E5907DC0C465F03#64 := by
  decide +kernel

/-- The CFG word of the worked DES example passes the checks of ENCRYPT and DECRYPT once a key is stored (R81). -/
theorem cipherCheck_of_workedCfg {s : State} (hcfg : s.cfg = 0x40080#20) (hkey : s.kvd = true) :
    cipherCheck s = .ok .des :=
  cipherCheck_of_des (State.cfgAlg_of_cfg hcfg (by decide)) (State.cfgDlen_of_cfg hcfg) hkey

/-- The two words of a DES block in DINBUF are its 8 bytes. -/
theorem first8_of_words {b : Block128} {v w : Word} (h0 : wordAt b 0 = v) (h1 : wordAt b 1 = w) : first8 b = v ++ w := by
  rw [first8, ← h0, ← h1, wordAt_append_wordAt b (by decide)]

/-- Settles O28: the checks in their order, then the cipher of the configured algorithm. -/
theorem encryptWritesTheBlock : Obligations.EncryptWritesTheBlock := by
  unfold Obligations.EncryptWritesTheBlock
  refine ⟨fun s halg hlen hkey => ?_, fun s halg hlen hkey => ?_, fun s hlen => ?_, fun s hlen hkey => ?_,
    fun s hcfg hkey hrk hword0 hword1 => ?_⟩
  · exact exec_encrypt_of_check (cipherCheck_of_des halg hlen hkey)
  · exact exec_encrypt_of_check (cipherCheck_of_deal halg hlen hkey)
  · exact exec_cipherCommand_of_error (.inl rfl) (cipherCheck_of_blockLen hlen)
  · exact exec_cipherCommand_of_error (.inl rfl) (cipherCheck_of_noKey hlen hkey)
  · have hout : s.cipherEnc .des s.dinbuf = zeroFill 0x8E5907DC0C465F03#64 := by
      rw [State.cipherEnc, hrk, first8_of_words hword0 hword1]
      exact congrArg zeroFill desEncrypt_workedBlock
    exact ⟨_, exec_encrypt_of_check (cipherCheck_of_workedCfg hcfg hkey), (hostRead_dout hout 0).trans (by decide),
      (hostRead_dout hout 1).trans (by decide), (hostRead_dout hout 2).trans (by decide),
      (hostRead_dout hout 3).trans (by decide)⟩

/-- Settles O29: as ENCRYPT with the inverse cipher; the example is that of ENCRYPT undone. -/
theorem decryptWritesTheBlock : Obligations.DecryptWritesTheBlock := by
  unfold Obligations.DecryptWritesTheBlock
  refine ⟨fun s halg hlen hkey => ?_, fun s halg hlen hkey => ?_, fun s hlen => ?_, fun s hlen hkey => ?_,
    fun s hcfg hkey hrk hword0 hword1 => ?_⟩
  · exact exec_decrypt_of_check (cipherCheck_of_des halg hlen hkey)
  · exact exec_decrypt_of_check (cipherCheck_of_deal halg hlen hkey)
  · exact exec_cipherCommand_of_error (.inr rfl) (cipherCheck_of_blockLen hlen)
  · exact exec_cipherCommand_of_error (.inr rfl) (cipherCheck_of_noKey hlen hkey)
  · have hout : s.cipherDec .des s.dinbuf = zeroFill 0x0123456789ABCDEF#64 := by
      have hin : first8 s.dinbuf = 0x8E5907DC0C465F03#64 := first8_of_words hword0 hword1
      rw [State.cipherDec, hrk, hin, ← desEncrypt_workedBlock, desDecrypt_desEncrypt]
    exact ⟨_, exec_decrypt_of_check (cipherCheck_of_workedCfg hcfg hkey), (hostRead_dout hout 0).trans (by decide),
      (hostRead_dout hout 1).trans (by decide)⟩

/-- Settles O57: ENCRYPT keeps the configuration and the keys, so DECRYPT passes the same checks and undoes the cipher. -/
theorem decryptUndoesEncrypt : Obligations.DecryptUndoesEncrypt := by
  unfold Obligations.DecryptUndoesEncrypt
  intro s t u hlen hkey hencrypt hdecrypt
  have hcheck : cipherCheck s = .ok s.cfgAlg := cipherCheck_eq_ok.mpr ⟨hlen, hkey, rfl⟩
  cases (exec_encrypt_of_check hcheck).symm.trans hencrypt
  cases (exec_decrypt_of_check (a := s.cfgAlg) (by exact hcheck)).symm.trans hdecrypt
  have hundo := s.cipherDec_cipherEnc s.cfgAlg s.dinbuf
  exact ⟨rfl, fun halg => hundo.trans (by rw [halg]; rfl), fun halg => hundo.trans (by rw [halg]; rfl)⟩

/-! ### MODE_INIT and MODE_CLEAR (R234, R237) -/

/-- The MODE value of a mode names it (R24). -/
@[simp] theorem modeOfBits_modeBits (m : Mode) : modeOfBits (modeBits m) = some m := by
  cases m <;> rfl

/-- The latched block of an algorithm: 8 bytes zero-filled under DES, all 16 under DEAL (R201). -/
theorem firstBlock_eq_ite (a : Alg) (b : Block128) :
    firstBlock a b = if a = .des then b.extractLsb' 64 64 ++ 0#64 else b := by
  cases a <;> rfl

/-- The reserved MODE value is found first (R234). -/
theorem modeInitResult_of_reserved {s : State} (h : s.cfgMode = 7#3) : modeInitResult s = .error .badMode := by
  rw [modeInitResult, h]
  rfl

/-- A wrong IVLEN fails outside ECB (R234). -/
theorem modeInitResult_of_ivLen {s : State} {m : Mode} (hmode : s.cfgMode = modeBits m) (hm : m ≠ .ecb)
    (hlen : s.cfgIvlen ≠ blockSize s.cfgAlg) : modeInitResult s = .error .ivLen := by
  simp only [modeInitResult, hmode, modeOfBits_modeBits, if_pos (And.intro hm hlen)]

/-- A legal mode and, outside ECB, the right IVLEN open a session (R234). -/
theorem modeInitResult_of_legal {s : State} {m : Mode} (hmode : s.cfgMode = modeBits m)
    (hlen : m ≠ .ecb → s.cfgIvlen = blockSize s.cfgAlg) : modeInitResult s = .ok (s.openSession m) := by
  have hpass : ¬ (m ≠ .ecb ∧ s.cfgIvlen ≠ blockSize s.cfgAlg) := fun h => h.2 (hlen h.1)
  simp only [modeInitResult, hmode, modeOfBits_modeBits, if_neg hpass]

/-- Settles O30: the mode and the IV length in their order, then the latched session. -/
theorem modeInitOpensASession : Obligations.ModeInitOpensASession := by
  unfold Obligations.ModeInitOpensASession
  have hopen (s : State) (m : Mode) (hmode : s.cfgMode = modeBits m)
      (hlen : m ≠ .ecb → s.cfgIvlen = blockSize s.cfgAlg) :
      exec .modeInit s = .next ((s.openSession m).complete 0x10#8 .ok) :=
    exec_of_execResult_ok (modeInitResult_of_legal hmode hlen)
  refine ⟨fun s m hmode hlen => ?_, fun s hmode => ?_, fun s m hmode hm hlen => ?_, fun s hcfg hword0 hword1 => ?_⟩
  · rw [hopen s m hmode hlen, State.openSession, firstBlock_eq_ite, firstBlock_eq_ite]
    rfl
  · exact exec_of_execResult_error (i := .modeInit) (modeInitResult_of_reserved hmode)
  · exact exec_of_execResult_error (i := .modeInit) (modeInitResult_of_ivLen hmode hm hlen)
  · have halg : s.cfgAlg = .des := State.cfgAlg_of_cfg hcfg (by decide)
    have hmode : s.cfgMode = modeBits .cbc := by rw [State.cfgMode, hcfg]; decide
    have hlen : s.cfgIvlen = blockSize s.cfgAlg := by rw [State.cfgIvlen, hcfg, halg]; decide
    have hcv : (s.openSession .cbc).cvbuf = zeroFill 0x0011223344556677#64 := by
      rw [State.openSession_cvbuf, if_neg (by decide), halg, firstBlock, first8_of_words hword0 hword1]
      decide
    exact ⟨_, hopen s .cbc hmode fun _ => hlen, rfl, rfl, (hostRead_cv hcv 0).trans (by decide),
      (hostRead_cv hcv 1).trans (by decide)⟩

/-- Closing the session of an IDLE controller changes nothing, since its fields are clear already (R203, R44). -/
theorem State.closeSession_of_closed {s : State} (hinv : s.SessionInv) (hclosed : s.sess = false) : s.closeSession = s := by
  obtain ⟨halg, hmode, hcv, hdelta⟩ := hinv.1 hclosed
  cases s
  cases hclosed
  cases halg
  cases hmode
  cases hcv
  cases hdelta
  rfl

/-- Settles O34: MODE_CLEAR completes on the closed session, which an IDLE controller's already is. -/
theorem modeClearClosesTheSession : Obligations.ModeClearClosesTheSession := by
  unfold Obligations.ModeClearClosesTheSession
  have hclear (s : State) : exec .modeClear s = .next (s.closeSession.complete 0x13#8 .ok) := exec_of_execResult_ok rfl
  refine ⟨hclear, fun s hinv hclosed => ?_⟩
  rw [hclear, State.closeSession_of_closed hinv hclosed]
  rfl

/-! ### MODE_ENC and MODE_DEC (R235, R236) -/

/-- No open session is found first (R306). -/
theorem sessionCheck_of_noSession {s : State} (h : s.sess = false) : sessionCheck s = .error .noSession := by
  rw [sessionCheck, if_pos h]

/-- In a session a wrong DLEN is found next (R306). -/
theorem sessionCheck_of_blockLen {s : State} (hsess : s.sess = true) (hlen : s.cfgDlen ≠ blockSize s.salg) :
    sessionCheck s = .error .blockLen := by
  rw [sessionCheck, hsess, if_neg (by decide), if_pos hlen]

/-- With the right DLEN a missing key of the session's algorithm is found (R306). -/
theorem sessionCheck_of_noKey {s : State} (hsess : s.sess = true) (hlen : s.cfgDlen = blockSize s.salg)
    (hkey : s.keyValid s.salg = false) : sessionCheck s = .error .noKey := by
  rw [sessionCheck, hsess, if_neg (by decide), if_neg (not_not.mpr hlen), if_pos hkey]

/-- A block of 8 bytes and a DES key pass the checks in a DES session. -/
theorem sessionCheck_of_des {s : State} (hsess : s.sess = true) (halg : s.salg = .des) (hlen : s.cfgDlen = 8)
    (hkey : s.kvd = true) : sessionCheck s = .ok .des :=
  sessionCheck_eq_ok.mpr (by rw [halg]; exact ⟨hsess, hlen, hkey, rfl⟩)

/-- A block of 16 bytes and a DEAL key pass them in a DEAL session. -/
theorem sessionCheck_of_deal {s : State} (hsess : s.sess = true) (halg : s.salg = .deal) (hlen : s.cfgDlen = 16)
    (hkey : s.kvl = true) : sessionCheck s = .ok .deal :=
  sessionCheck_eq_ok.mpr (by rw [halg]; exact ⟨hsess, hlen, hkey, rfl⟩)

/-- The block command of a direction runs that direction's row. -/
theorem execResult_blockCommand (d : Dir) (s : State) : execResult (blockCommand d) s = modeBlockResult d s := by
  cases d <;> rfl

/-- A block command of a session reports the error of its checks and changes nothing else. -/
theorem exec_blockCommand_of_error {s : State} {e : ErrCode} (d : Dir) (h : sessionCheck s = .error e) :
    exec (blockCommand d) s = .next (s.complete (blockCommand d).opc e) :=
  exec_of_execResult_error (by rw [execResult_blockCommand, modeBlockResult, h])

/-- A block command that passes its checks writes its row's output and chaining value, and the hidden schedule as the
algorithm does in the cipher direction that was run (R213). -/
theorem exec_blockCommand_of_check {s : State} {a : Alg} (d : Dir) (h : sessionCheck s = .ok a) :
    exec (blockCommand d) s = .next (State.complete
      { s with
        doutbuf := (s.sessionChain d a).Y, cvbuf := (s.sessionChain d a).CV
        dealInnerRk := s.innerAfter a (cipherDir d s.smode) } (blockCommand d).opc .ok) :=
  exec_of_execResult_ok (by rw [execResult_blockCommand, modeBlockResult, h])

/-- The inverse cipher is run, and leaves its hidden schedule, only under ECB, CBC and PCBC (R213). -/
theorem State.innerAfter_deal_cipherDir_dec (s : State) (m : Mode) :
    s.innerAfter .deal (cipherDir .dec m) =
      if m ∈ [.ecb, .cbc, .pcbc] then innerAfterDec s.rkDeal s.dealInnerRk
      else innerAfterEnc s.rkDeal s.dealInnerRk := by
  cases m <;> rfl

/-- The CFG word of the worked CBC example passes the checks in a DES session once a key is stored (R81). -/
theorem sessionCheck_of_workedCfg {s : State} (hsess : s.sess = true) (halg : s.salg = .des) (hcfg : s.cfg = 0x42082#20)
    (hkey : s.kvd = true) : sessionCheck s = .ok .des :=
  sessionCheck_of_des hsess halg (State.cfgDlen_of_cfg hcfg) hkey

/-- The worked block under the worked key and IV in CBC (the example of R235). -/
theorem desEncrypt_workedCbcBlock : desEncrypt (desSchedule 0x133457799BBCDFF1#64)
    (0x0123456789ABCDEF#64 ^^^ 0x0011223344556677#64) = 0x0CE6AF875BD44176#64 := by
  decide +kernel

/-- Settles O31: the checks in their order, then the encrypt row under the session's algorithm. -/
theorem modeEncRunsTheEncryptRow : Obligations.ModeEncRunsTheEncryptRow := by
  unfold Obligations.ModeEncRunsTheEncryptRow
  refine ⟨fun s hsess halg hlen hkey => ?_, fun s hsess halg hlen hkey => ?_, fun s hsess => ?_, fun s hsess hlen => ?_,
    fun s hsess hlen hkey => ?_, fun s hsess halg hmode hcfg hkey hrk hcv hin => ?_⟩
  · exact exec_blockCommand_of_check .enc (sessionCheck_of_des hsess halg hlen hkey)
  · exact exec_blockCommand_of_check .enc (sessionCheck_of_deal hsess halg hlen hkey)
  · exact exec_blockCommand_of_error .enc (sessionCheck_of_noSession hsess)
  · exact exec_blockCommand_of_error .enc (sessionCheck_of_blockLen hsess hlen)
  · exact exec_blockCommand_of_error .enc (sessionCheck_of_noKey hsess hlen hkey)
  · have hrow : s.sessionChain .enc .des = ⟨zeroFill 0x0CE6AF875BD44176#64, zeroFill 0x0CE6AF875BD44176#64⟩ := by
      simp only [State.sessionChain, first8, hmode, hrk, hcv, hin, chain, chainEnc, desEncrypt_workedCbcBlock]
    refine ⟨_, exec_blockCommand_of_check .enc (sessionCheck_of_workedCfg hsess halg hcfg hkey), ?_⟩
    rw [hrow]
    exact ⟨rfl, rfl⟩

/-- Under OFB, CTR and RandomDelta both rows are the same (R209 to R211). -/
theorem chain_dec_eq_chain_enc {n : Nat} {m : Mode} (hm : m ∈ [.ofb, .ctr, .randomDelta])
    (E Einv : BitVec n → BitVec n) (D X CV : BitVec n) : chain .dec m E Einv D X CV = chain .enc m E Einv D X CV := by
  cases m with
  | ofb | ctr | randomDelta => rfl
  | ecb | cbc | pcbc | cfb => simp at hm

/-- So under these modes a session's block is the same in both directions. -/
theorem State.sessionChain_dec_eq_enc {s : State} (hm : s.smode ∈ [.ofb, .ctr, .randomDelta]) (a : Alg) :
    s.sessionChain .dec a = s.sessionChain .enc a := by
  cases a <;> simp only [State.sessionChain, chain_dec_eq_chain_enc hm]

/-- Under CFB both rows give the same output block (R208). -/
theorem State.sessionChain_cfb_Y {s : State} (hm : s.smode = .cfb) (a : Alg) :
    (s.sessionChain .dec a).Y = (s.sessionChain .enc a).Y := by
  cases a <;> simp only [State.sessionChain, hm, chain, chainDec, chainEnc]

/-- In the modes that never call the inverse cipher both directions run the cipher forward (R213). -/
theorem cipherDir_dec_eq_enc {m : Mode} (hm : m ∈ [.cfb, .ofb, .ctr, .randomDelta]) : cipherDir .dec m = cipherDir .enc m := by
  cases m with
  | cfb | ofb | ctr | randomDelta => rfl
  | ecb | cbc | pcbc => simp at hm

/-- What MODE_DEC leaves beside what MODE_ENC leaves in a mode that runs the cipher forward: another ECMD, and whatever the
rows differ in. -/
theorem modeDec_beside_modeEnc {s t u : State} (hm : s.smode ∈ [.cfb, .ofb, .ctr, .randomDelta])
    (hY : ∀ a, (s.sessionChain .dec a).Y = (s.sessionChain .enc a).Y) (ht : exec .modeEnc s = .next t)
    (hu : exec .modeDec s = .next u) :
    u = { t with ecmd := 0x12#8, cvbuf := u.cvbuf } ∧
      ((∀ a, s.sessionChain .dec a = s.sessionChain .enc a) → u.cvbuf = t.cvbuf) := by
  cases hcheck : sessionCheck s with
  | error e =>
    cases (exec_blockCommand_of_error .enc hcheck).symm.trans ht
    cases (exec_blockCommand_of_error .dec hcheck).symm.trans hu
    exact ⟨rfl, fun _ => rfl⟩
  | ok a =>
    cases (exec_blockCommand_of_check .enc hcheck).symm.trans ht
    cases (exec_blockCommand_of_check .dec hcheck).symm.trans hu
    rw [hY a, cipherDir_dec_eq_enc hm]
    exact ⟨rfl, fun hrow => congrArg Chained.CV (hrow a)⟩

/-- Settles O32: as MODE_ENC with the decrypt row and its cipher direction; where the rows agree so do the outcomes. -/
theorem modeDecRunsTheDecryptRow : Obligations.ModeDecRunsTheDecryptRow := by
  unfold Obligations.ModeDecRunsTheDecryptRow
  refine ⟨fun s hsess halg hlen hkey => ?_, fun s hsess halg hlen hkey => ?_, fun s hsess => ?_, fun s hsess hlen => ?_,
    fun s hsess hlen hkey => ?_, fun s t u ht hu => ⟨fun hm => ?_, fun hm => ?_⟩,
    fun s hsess halg hmode hcfg hkey hrk hcv hin => ?_⟩
  · exact exec_blockCommand_of_check .dec (sessionCheck_of_des hsess halg hlen hkey)
  · rw [← State.innerAfter_deal_cipherDir_dec s s.smode]
    exact exec_blockCommand_of_check .dec (sessionCheck_of_deal hsess halg hlen hkey)
  · exact exec_blockCommand_of_error .dec (sessionCheck_of_noSession hsess)
  · exact exec_blockCommand_of_error .dec (sessionCheck_of_blockLen hsess hlen)
  · exact exec_blockCommand_of_error .dec (sessionCheck_of_noKey hsess hlen hkey)
  · have hrow := State.sessionChain_dec_eq_enc hm
    obtain ⟨hframe, hcv⟩ := modeDec_beside_modeEnc (List.mem_cons_of_mem _ hm) (fun a => congrArg Chained.Y (hrow a)) ht hu
    rw [hcv hrow] at hframe
    exact hframe
  · exact (modeDec_beside_modeEnc (by rw [hm]; decide) (State.sessionChain_cfb_Y hm) ht hu).1
  · have hrow : s.sessionChain .dec .des = ⟨zeroFill 0x0123456789ABCDEF#64, zeroFill 0x0CE6AF875BD44176#64⟩ := by
      simp only [State.sessionChain, first8, hmode, hrk, hcv, hin, chain, chainDec]
      rw [← desEncrypt_workedCbcBlock, desDecrypt_desEncrypt, BitVec.xor_assoc, BitVec.xor_self, BitVec.xor_zero]
    refine ⟨_, exec_blockCommand_of_check .dec (sessionCheck_of_workedCfg hsess halg hcfg hkey), ?_⟩
    rw [hrow]
    exact ⟨rfl, rfl⟩

end Sys2Proof.Machine

/-! SUPPORT. The host's padding schemes (spec/47_host_padding.md R263 to R271): the length of the padding, unpadding by the
length byte and by stripping zeros; then the padding round trip. -/

namespace Sys2Proof.Machine

/-! ### The length of the padding (R263 to R269) -/

/-- At least one byte is missing to the next block end. -/
theorem padCount_pos {bs : Nat} (hbs : 0 < bs) (P : List Byte) : 0 < padCount bs P :=
  Nat.sub_pos_of_lt (Nat.mod_lt _ hbs)

/-- At most a whole block is missing. -/
theorem padCount_le (bs : Nat) (P : List Byte) : padCount bs P ≤ bs :=
  Nat.sub_le _ _

/-- The message and the missing bytes are whole blocks. -/
theorem dvd_length_add_padCount {bs : Nat} (hbs : 0 < bs) (P : List Byte) : bs ∣ P.length + padCount bs P := by
  have hlt := Nat.mod_lt P.length hbs
  have hdiv := Nat.div_add_mod P.length bs
  refine ⟨P.length / bs + 1, ?_⟩
  rw [padCount, Nat.mul_succ]
  omega

/-- A padded message is whole blocks (R263 to R269). -/
theorem dvd_length_pad (scheme : PadScheme) {bs : Nat} (hbs : 0 < bs) (draw : Nat → Byte) (P : List Byte) :
    bs ∣ (pad scheme bs draw P).length := by
  have hwhole := dvd_length_add_padCount hbs P
  have hpos := padCount_pos hbs P
  have hbyte : P.length + (padCount bs P - 1) + 1 = P.length + padCount bs P := by omega
  cases scheme with
  | pkcs7 => simpa [pad] using hwhole
  | ansix923 | iso10126 => simpa [pad, ← Nat.add_assoc, hbyte] using hwhole
  | zeros => simpa [pad, Nat.dvd_iff_mod_eq_zero] using hwhole

/-! ### Unpadding (R264 to R270) -/

/-- Unpadding by the length byte takes off a filler that the byte counts, and that has the byte's value where it is checked. -/
theorem unpadByLength_of_filler {checkFiller : Bool} {bs n : Nat} {P F : List Byte} (hcount : F.length + 1 = n) (hle : n ≤ bs)
    (hbyte : n < 256) (hfiller : checkFiller = true → ∀ b ∈ F, b = BitVec.ofNat 8 n) :
    unpadByLength checkFiller bs (P ++ F ++ [BitVec.ofNat 8 n]) = .ok P := by
  have hvalue : (BitVec.ofNat 8 n).toNat = n := by rw [BitVec.toNat_ofNat, Nat.mod_eq_of_lt hbyte]
  have hfront : (P ++ F ++ [BitVec.ofNat 8 n]).length - n = P.length := by simp; omega
  have hbounds : padLengthOk bs (P ++ F ++ [BitVec.ofNat 8 n]) n = true := by simp [padLengthOk]; omega
  have hcheck : (!checkFiller || (F ++ [BitVec.ofNat 8 n]).all (· == BitVec.ofNat 8 n)) = true := by
    cases checkFiller with
    | false => rfl
    | true => simpa using hfiller rfl
  simp only [unpadByLength, List.getLast?_concat, hvalue, hfront, hbounds]
  simp only [List.append_assoc, List.drop_left, List.take_left, hcheck, Bool.and_self, if_true]

/-- Stripping zeros takes off the zeros that were appended. -/
theorem rdropWhile_append_replicate_zero (P : List Byte) (k : Nat) :
    (P ++ List.replicate k 0x00#8).rdropWhile (· == 0x00#8) = P.rdropWhile (· == 0x00#8) := by
  induction k with
  | zero => rw [List.replicate_zero, List.append_nil]
  | succ k ih => rw [List.replicate_succ', ← List.append_assoc, List.rdropWhile_concat_pos _ _ _ rfl, ih]

/-- Stripping zeros changes nothing exactly where the string is empty or ends in another byte (R264). -/
theorem rdropWhile_zero_eq_self_iff (P : List Byte) :
    P.rdropWhile (· == 0x00#8) = P ↔ P = [] ∨ P.getLast? ≠ some 0x00#8 := by
  rw [List.rdropWhile_eq_self_iff]
  rcases eq_or_ne P [] with rfl | hne
  · simp
  · simp [hne, List.getLast?_eq_some_getLast hne]

/-- Both block sizes are positive and fit in the length byte (R6). -/
theorem blockSize_bounds (a : Alg) : 0 < blockSize a ∧ blockSize a < 256 := by
  cases a <;> decide

/-- Settles O59: the last byte counts the filler, which PKCS7 fills with that byte; Zeros strips what it appended and then
whatever zeros the message ends in. -/
theorem paddingRoundTrip : Obligations.PaddingRoundTrip := by
  unfold Obligations.PaddingRoundTrip
  intro a draw P
  obtain ⟨hpos, hbyte⟩ := blockSize_bounds a
  have hcount : padCount (blockSize a) P - 1 + 1 = padCount (blockSize a) P := Nat.sub_add_cancel (padCount_pos hpos P)
  have hle := padCount_le (blockSize a) P
  have hlt := Nat.lt_of_le_of_lt hle hbyte
  refine ⟨fun scheme hscheme => ?_, ?_⟩
  · cases scheme with
    | zeros => exact absurd rfl hscheme
    | pkcs7 =>
      have hlast : pad .pkcs7 (blockSize a) draw P =
          P ++ List.replicate (padCount (blockSize a) P - 1) (BitVec.ofNat 8 (padCount (blockSize a) P)) ++
            [BitVec.ofNat 8 (padCount (blockSize a) P)] := by
        rw [List.append_assoc, ← List.replicate_succ', hcount]
        rfl
      rw [hlast]
      exact unpadByLength_of_filler (by simpa using hcount) hle hlt fun _ b hb => List.eq_of_mem_replicate hb
    | ansix923 => exact unpadByLength_of_filler (by simpa using hcount) hle hlt nofun
    | iso10126 => exact unpadByLength_of_filler (by simpa using hcount) hle hlt nofun
  · rw [unpad, pad, Except.ok.injEq, rdropWhile_append_replicate_zero, rdropWhile_zero_eq_self_iff]

end Sys2Proof.Machine

/-! SUPPORT. The host's message procedures (spec/47_host_padding.md R260, R261): the blocks of a byte string, what loading a
block and running a command leave, and a decrypted block beside the encrypted one; then the message round trip. -/

namespace Sys2Proof.Machine

/-! ### The blocks of a byte string -/

/-- The first block of a string that begins with one. -/
theorem blocksOf_append {bs : Nat} (hbs : 0 < bs) {b : List Byte} (hb : b.length = bs) (Q : List Byte) :
    blocksOf bs (b ++ Q) = b :: blocksOf bs Q := by
  have hcount : (b ++ Q).length / bs = Q.length / bs + 1 := by
    rw [List.length_append, hb, Nat.add_comm, Nat.add_div_right _ hbs]
  have hdrop (j : Nat) : (b ++ Q).drop ((j + 1) * bs) = Q.drop (j * bs) := by
    rw [Nat.succ_mul, Nat.add_comm, ← List.drop_drop, ← hb, List.drop_left]
  rw [blocksOf, hcount, List.range_succ_eq_map, List.map_cons, List.map_map, Nat.zero_mul, List.drop_zero]
  simp only [Function.comp_def, Nat.succ_eq_add_one, hdrop, blocksOf]
  rw [← hb, List.take_left]

/-- Cutting blocks put after each other gives them back. -/
theorem blocksOf_flatten {bs : Nat} (hbs : 0 < bs) {Bs : List (List Byte)} (hBs : ∀ b ∈ Bs, b.length = bs) :
    blocksOf bs Bs.flatten = Bs := by
  induction Bs with
  | nil => simp [blocksOf]
  | cons b Bs ih =>
    obtain ⟨hb, hBs⟩ := List.forall_mem_cons.mp hBs
    rw [List.flatten_cons, blocksOf_append hbs hb, ih hBs]

/-- A string of whole blocks is some blocks put after each other. -/
theorem exists_blocks_of_dvd {bs : Nat} {Q : List Byte} (h : bs ∣ Q.length) :
    ∃ Bs : List (List Byte), (∀ b ∈ Bs, b.length = bs) ∧ Bs.flatten = Q := by
  obtain ⟨k, hk⟩ := h
  induction k generalizing Q with
  | zero => exact ⟨[], nofun, (List.eq_nil_of_length_eq_zero hk).symm⟩
  | succ k ih =>
    rw [Nat.mul_succ] at hk
    obtain ⟨Bs, hBs, hQ⟩ := ih (Q := Q.drop bs) (by rw [List.length_drop]; omega)
    refine ⟨Q.take bs :: Bs, List.forall_mem_cons.mpr ⟨by rw [List.length_take]; omega, hBs⟩, ?_⟩
    rw [List.flatten_cons, hQ, List.take_append_drop]

/-- Blocks put after each other are whole blocks. -/
theorem dvd_length_flatten {bs : Nat} {Bs : List (List Byte)} (hBs : ∀ b ∈ Bs, b.length = bs) : bs ∣ Bs.flatten.length := by
  rw [List.length_flatten, List.map_congr_left hBs, List.map_const', List.sum_replicate, smul_eq_mul]
  exact Nat.dvd_mul_left bs _

/-! ### What the commands of a message leave -/

/-- The state with everything at a fixed value that loading a block and a block command may write, and ST.pending with it:
states with the same frame agree on all the rest. -/
def State.blockFrame (s : State) : State :=
  { s with
    done := false, err := .ok, ecmd := 0x00#8, dinbuf := 0#128, doutbuf := 0#128, cvbuf := 0#128
    dealInnerRk := State.reset.dealInnerRk, pending := none, readData := 0#32 }

/-- The core takes a command: it is released and not busy (R63, R302). -/
def State.Idle (s : State) : Prop := s.busy = false ∧ s.rst = false

/-! ### Running a command (R88) -/

/-- A wait on a pending command reads BUSY = 1 until the core's turn, whatever the number of polls, and ends with what the
turn left; only the word last read is the loop's own. -/
theorem waitLoop_of_coreTurn {s t : State} (turn : Nat) (hr : s.rst = false) (hb : s.busy = true)
    (ht : coreTurn s = .next t) (htr : t.rst = false) (htb : t.busy = false) :
    waitLoop turn s = .next (.ok (), { t with readData := t.statusWord }) := by
  induction turn generalizing s t with
  | zero =>
    simp only [waitLoop, ht]
    rw [if_neg (by rw [State.poll_busy htr, htb]; decide), State.poll_eq htr]
  | succ turn ih =>
    rw [waitLoop_of_busy turn hr hb, State.poll_eq hr]
    exact ih (t := { t with readData := s.statusWord }) hr hb (coreTurn_readData s t s.statusWord ht) htr htb

/-- A command run on an idle core, with a result that has the frame of an idle state: it ends without error on that frame
and with the result's DOUTBUF and CVBUF, after any number of polls. -/
theorem runCommand_of_execResult_ok {i : Instr} {s r s' : State} (turn : Nat) (hs : s.Idle)
    (h : execResult i (s.accept (encode i)) = .ok s') (hr : r.Idle)
    (hframe : s'.blockFrame = (r.accept (encode i)).blockFrame) :
    ∃ t, runCommand turn i s = .next (.ok (), t) ∧ t.blockFrame = r.blockFrame ∧ t.doutbuf = s'.doutbuf ∧
      t.cvbuf = s'.cvbuf := by
  obtain ⟨hb, hrst⟩ := hs
  obtain ⟨hrb, hrrst⟩ := hr
  have haccept : s.transact (.write (idxOf .cmd) (encode i)) = s.accept (encode i) := by
    rw [transact_write_of_released _ _ hrst]
    exact hostWrite_cmd _ hb
  have hturn : coreTurn (s.accept (encode i)) = .next (s'.complete i.opc .ok) := by
    rw [coreTurn_of_pending (State.accept_pending s _) hrst, runWord_of_decode _ (decode_encode i), exec_of_execResult_ok h]
  have hrst' : s'.rst = r.rst := (congrArg State.rst hframe :)
  have hwait := waitLoop_of_coreTurn turn (s := s.accept (encode i)) hrst rfl hturn (hrst'.trans hrrst) rfl
  refine ⟨{ s'.complete i.opc .ok with readData := (s'.complete i.opc .ok).statusWord }, ?_, ?_, rfl, rfl⟩
  · simp only [runCommand, performLine, expand, performOps, performOp, haccept, hwait, hostThen_ok]
    rfl
  · calc
      _ = { s'.blockFrame with busy := false } := rfl
      _ = { r.blockFrame with busy := false } := by rw [hframe]; rfl
      _ = r.blockFrame := by rw [← hrb]; rfl

/-! ### Loading a block (R88) -/

/-- The state with another value in DINBUF. -/
def State.withDin (s : State) (D : Block128) : State := { s with dinbuf := D }

/-- Writing words into DIN from word k on gives DINBUF those words there, and changes nothing else (R61, R63). -/
theorem performOps_loadFrom_din {s : State} (turn : Nat) (hs : s.Idle) {ws : List Word} {k : Nat} (hk : k + ws.length ≤ 4) :
    ∃ D, performOps turn (loadFrom (BitVec.ofNat 6 (0x0C + k)) ws) s = .next (.ok (), s.withDin D) ∧
      (∀ w < k, wordAt D w = wordAt s.dinbuf w) ∧ ∀ w (hw : w < ws.length), wordAt D (k + w) = ws[w] := by
  induction ws generalizing s k with
  | nil => exact ⟨s.dinbuf, rfl, fun _ _ => rfl, nofun⟩
  | cons v vs ih =>
    rw [List.length_cons] at hk
    have hwrite : s.transact (.write (BitVec.ofNat 6 (0x0C + k)) v) = s.withDin (setWordAt s.dinbuf k v) := by
      have hdin := hostWrite_din v hs.1 ⟨k, by omega⟩
      rw [State.transact, if_neg (by rw [hs.2]; decide)]
      exact hdin
    have hnext : BitVec.ofNat 6 (0x0C + k) + 1#6 = BitVec.ofNat 6 (0x0C + (k + 1)) :=
      (BitVec.ofNat_add (0x0C + k) 1).symm
    have hset := wordAt_setWordAt_fin (m := 4) s.dinbuf ⟨k, by omega⟩ v
    obtain ⟨D, hops, hkept, hnew⟩ := ih (s := s.withDin (setWordAt s.dinbuf k v)) (k := k + 1) hs (by omega)
    refine ⟨D, ?_, fun w hw => ?_, fun w hw => ?_⟩
    · rw [loadFrom, performOps, performOp, hostThen_ok, hwrite, hnext]
      exact hops
    · exact (hkept w (by omega)).trans ((hset w (by omega)).trans (if_neg hw.ne))
    · cases w with
      | zero => exact (hkept k (by omega)).trans ((hset k (by omega)).trans (if_pos rfl))
      | succ w =>
        rw [← Nat.add_assoc, Nat.add_right_comm, hnew w (Nat.lt_of_succ_lt_succ hw)]
        rfl

/-- Loading a block of at most 16 bytes puts its bytes in front in DINBUF and changes nothing else (R61, R88). -/
theorem performLine_ldblk {s : State} (turn : Nat) (hs : s.Idle) {b : List Byte} (hlen : b.length ≤ 16) :
    ∃ D, performLine turn (.ldblk b) s = .next (.ok (), s.withDin D) ∧ bytesOf D b.length = b := by
  have hwords : (wordsOf b).length = (b.length + 3) / 4 := by rw [wordsOf, List.length_map, List.length_range]
  obtain ⟨D, hops, -, hnew⟩ := performOps_loadFrom_din turn hs (ws := wordsOf b) (k := 0) (by omega)
  have hbytes (j : Nat) (hj : j < b.length) : byteAt D j = b[j] := by
    have hword := hnew (j / 4) (by omega)
    have hbyte : byteAt (packBytes (8 * 4) ((b.drop (4 * (j / 4))).take 4)) (j % 4) = b[j] := by
      rw [byteAt_packBytes _ (by omega), List.getD_eq_getElem?_getD, List.getElem?_take_of_lt (by omega), List.getElem?_drop,
        Nat.div_add_mod, List.getElem?_eq_getElem hj, Option.getD_some]
    simp only [Nat.zero_add, wordsOf, List.getElem_map, List.getElem_range] at hword
    have hpos : 8 * 4 - 8 * (j % 4 + 1) = 24 - 8 * (j % 4) := by omega
    rw [byteAt_eq_extractLsb'_wordAt D (by omega), hword, ← hbyte, byteAt, hpos]
  exact ⟨D, hops, List.ext_getElem (by simp [bytesOf]) fun j _ hj => by simpa [bytesOf] using hbytes j hj⟩

/-! ### One block in both directions (R204, R212) -/

/-- The first 8 bytes of a buffer are the buffer's. -/
theorem byteAt_first8 (b : Block128) {j : Nat} (hj : j < 8) : byteAt (first8 b) j = byteAt b j := by
  have h := byteAt_extractLsb' b 8 0 j hj (by decide)
  simp only [Nat.zero_add] at h
  exact h

/-- The bytes of an algorithm's block in a buffer are those of the buffer. -/
theorem byteAt_firstBlock {a : Alg} (b : Block128) {j : Nat} (hj : j < blockSize a) :
    byteAt (firstBlock a b) j = byteAt b j := by
  cases a with
  | deal => rfl
  | des => rw [firstBlock, ← byteAt_first8 _ hj, first8_zeroFill, byteAt_first8 b hj]

/-- A buffer's first bytes are those of its block. -/
theorem bytesOf_firstBlock (a : Alg) (b : Block128) : bytesOf (firstBlock a b) (blockSize a) = bytesOf b (blockSize a) :=
  List.map_congr_left fun _ hj => byteAt_firstBlock b (List.mem_range.mp hj)

/-- The block is its bytes, with zeros to 16 (R201). -/
theorem packBytes_bytesOf (a : Alg) (b : Block128) : packBytes 128 (bytesOf b (blockSize a)) = firstBlock a b := by
  refine packBytes_eq_of_byteAt (m := 16) _ (firstBlock a b) fun j hj => ?_
  rw [bytesOf, List.getD_eq_getElem?_getD, List.getElem?_map]
  rcases Nat.lt_or_ge j (blockSize a) with hlt | hge
  · rw [List.getElem?_range hlt, byteAt_firstBlock b hlt]
    rfl
  · rw [List.getElem?_eq_none (by simpa using hge)]
    cases a with
    | des => exact (byteAt_zeroFill _ hge).symm
    | deal => exact absurd hj (Nat.not_lt.mpr hge)

/-- In one session and from one chaining value, the decrypt row on the block the encrypt row gave gives the encrypted block
back and the same new chaining value (R212). -/
theorem sessionChain_dec_of_enc {s t : State} (a : Alg) (hframe : t.blockFrame = s.blockFrame) (hcv : t.cvbuf = s.cvbuf)
    (hin : firstBlock a t.dinbuf = firstBlock a (s.sessionChain .enc a).Y) :
    t.sessionChain .dec a = ⟨firstBlock a s.dinbuf, (s.sessionChain .enc a).CV⟩ := by
  have hmode : t.smode = s.smode := (congrArg State.smode hframe :)
  have hdelta : t.sDelta = s.sDelta := (congrArg State.sDelta hframe :)
  cases a with
  | des =>
    have hrk : t.rkDes = s.rkDes := (congrArg State.rkDes hframe :)
    have hblock : first8 t.dinbuf = first8 (s.sessionChain .enc .des).Y := by simpa [firstBlock] using congrArg first8 hin
    simp only [State.sessionChain, hmode, hdelta, hrk, hcv, hblock, firstBlock, first8_zeroFill,
      chain_dec_chain_enc (desDecrypt_desEncrypt s.rkDes)]
  | deal =>
    have hrk : t.rkDeal = s.rkDeal := (congrArg State.rkDeal hframe :)
    have hblock : t.dinbuf = (s.sessionChain .enc .deal).Y := hin
    simp only [State.sessionChain, hmode, hdelta, hrk, hcv, hblock, firstBlock,
      chain_dec_chain_enc (dealDecrypt_dealEncrypt s.rkDeal)]

/-- The core takes the blocks of a session: it is idle, and the checks of a block command pass (R235). -/
def State.BlockReady (s : State) (a : Alg) : Prop := s.Idle ∧ sessionCheck s = .ok a

/-- Whether a core takes blocks does not depend on what a block leaves. -/
theorem State.BlockReady.of_blockFrame {s t : State} {a : Alg} (h : s.BlockReady a) (hframe : t.blockFrame = s.blockFrame) :
    t.BlockReady a := by
  have hready : s.blockFrame.BlockReady a := h
  rw [← hframe] at hready
  exact hready

/-- Accepting a command changes nothing the session's row reads. -/
@[simp] theorem State.sessionChain_accept (s : State) (c : Word) (d : Dir) (a : Alg) :
    (s.accept c).sessionChain d a = s.sessionChain d a := by
  cases a <;> rfl

/-- A block of a message: the bytes are in front in DINBUF, the row of the session gives the block read from DOUTBUF and
the new chaining value, and nothing else changes but for what a block leaves (R260). -/
theorem runBlocks_cons {s : State} {a : Alg} (turn : Nat) (d : Dir) (h : s.BlockReady a) {b : List Byte}
    (hlen : b.length = blockSize a) :
    ∃ D s', bytesOf D (blockSize a) = b ∧ s'.blockFrame = s.blockFrame ∧
      s'.doutbuf = ((s.withDin D).sessionChain d a).Y ∧
      s'.cvbuf = ((s.withDin D).sessionChain d a).CV ∧
      ∀ rest out t, runBlocks turn d (blockSize a) rest s' = .next (.ok out, t) →
        runBlocks turn d (blockSize a) (b :: rest) s = .next (.ok (bytesOf s'.doutbuf (blockSize a) ++ out), t) := by
  obtain ⟨hidle, hcheck⟩ := h
  have hle : blockSize a ≤ 16 := by cases a <;> decide
  obtain ⟨D, hload, hD⟩ := performLine_ldblk turn hidle (hlen.trans_le hle)
  have hresult := execResult_blockCommand d ((s.withDin D).accept (encode (blockCommand d)))
  have hcheck' : sessionCheck ((s.withDin D).accept (encode (blockCommand d))) = .ok a := hcheck
  simp only [modeBlockResult, hcheck', State.sessionChain_accept] at hresult
  obtain ⟨s', hrun, hframe, hout, hcv⟩ :=
    runCommand_of_execResult_ok (s := s.withDin D) (r := s) turn hidle hresult hidle rfl
  refine ⟨D, s', hlen ▸ hD, hframe, hout, hcv, fun rest out t hrest => ?_⟩
  rw [runBlocks, hload, hostThen_ok, hrun, hostThen_ok, hrest, hostThen_ok]

/-- What one direction of a session makes of blocks, the other undoes from the same chaining value, whatever the numbers of
polls (R212, R260, R261). -/
theorem runBlocks_round_trip {s : State} {a : Alg} (turnEnc turnDec : Nat) (h : s.BlockReady a) {Bs : List (List Byte)}
    (hBs : ∀ b ∈ Bs, b.length = blockSize a) :
    ∃ Cs s', runBlocks turnEnc .enc (blockSize a) Bs s = .next (.ok Cs.flatten, s') ∧ (∀ c ∈ Cs, c.length = blockSize a) ∧
      s'.blockFrame = s.blockFrame ∧
      ∀ t, t.blockFrame = s.blockFrame → t.cvbuf = s.cvbuf →
        ∃ t', runBlocks turnDec .dec (blockSize a) Cs t = .next (.ok Bs.flatten, t') ∧ t'.blockFrame = t.blockFrame := by
  induction Bs generalizing s with
  | nil => exact ⟨[], s, rfl, nofun, rfl, fun t _ _ => ⟨t, rfl, rfl⟩⟩
  | cons b Bs ih =>
    obtain ⟨hb, hBs⟩ := List.forall_mem_cons.mp hBs
    obtain ⟨D, s₁, hD, hframe₁, hout₁, hcv₁, hcons₁⟩ := runBlocks_cons turnEnc .enc h hb
    obtain ⟨Cs, s', hrun, hCs, hframe, hback⟩ := ih (h.of_blockFrame hframe₁) hBs
    have hC : (bytesOf s₁.doutbuf (blockSize a)).length = blockSize a := by simp [bytesOf]
    refine ⟨_ :: Cs, s', hcons₁ Bs _ s' hrun, List.forall_mem_cons.mpr ⟨hC, hCs⟩, hframe.trans hframe₁,
      fun t htframe htcv => ?_⟩
    obtain ⟨D', t₁, hD', htframe₁, htout₁, htcv₁, htcons₁⟩ := runBlocks_cons turnDec .dec (h.of_blockFrame htframe) hC
    have hin : firstBlock a D' = firstBlock a ((s.withDin D).sessionChain .enc a).Y := by
      rw [← packBytes_bytesOf, hD', hout₁, packBytes_bytesOf]
    have hback₁ := sessionChain_dec_of_enc (s := s.withDin D) (t := t.withDin D') a htframe htcv hin
    rw [hback₁] at htout₁ htcv₁
    obtain ⟨t', htrun, htframe'⟩ := hback t₁ (htframe₁.trans (htframe.trans hframe₁.symm)) (htcv₁.trans hcv₁.symm)
    refine ⟨t', ?_, htframe'.trans htframe₁⟩
    have hblock : bytesOf t₁.doutbuf (blockSize a) = b := by
      rw [htout₁, bytesOf_firstBlock]
      exact hD
    rw [htcons₁ Cs _ t' htrun, hblock, List.flatten_cons]

/-! ### A message (R260, R261) -/

/-- The core is idle and MODE_INIT with the block commands after it will pass their checks: a legal mode m, legal lengths
and a key. -/
def State.MessageReady (s : State) (m : Mode) : Prop :=
  s.Idle ∧ s.cfgMode = modeBits m ∧ (m ≠ .ecb → s.cfgIvlen = blockSize s.cfgAlg) ∧ s.cfgDlen = blockSize s.cfgAlg ∧
    s.keyValid s.cfgAlg = true

/-- A message procedure opens a session and, where its blocks give their output and leave the session's frame, answers that
output on a closed session. -/
theorem runMessage_of_runBlocks {s : State} {m : Mode} (turn : Nat) (d : Dir) (h : s.MessageReady m) :
    ∃ s₁, s₁.BlockReady s.cfgAlg ∧ s₁.blockFrame = (s.openSession m).blockFrame ∧ s₁.cvbuf = (s.openSession m).cvbuf ∧
      ∀ Q out s₂, runBlocks turn d (blockSize s.cfgAlg) (blocksOf (blockSize s.cfgAlg) Q) s₁ = .next (.ok out, s₂) →
        s₂.blockFrame = s₁.blockFrame →
          ∃ t, runMessage turn d (blockSize s.cfgAlg) Q s = .next (.ok out, t) ∧ t.blockFrame = s.closeSession.blockFrame := by
  obtain ⟨hidle, hmode, hiv, hlen, hkey⟩ := h
  have hinit : execResult .modeInit (s.accept (encode .modeInit)) = .ok ((s.accept (encode .modeInit)).openSession m) :=
    modeInitResult_of_legal hmode hiv
  obtain ⟨s₁, hrun₁, hframe₁, -, hcv₁⟩ := runCommand_of_execResult_ok (r := s.openSession m) turn hidle hinit hidle rfl
  have hopen : (s.openSession m).BlockReady s.cfgAlg := ⟨hidle, sessionCheck_eq_ok.mpr ⟨rfl, hlen, hkey, rfl⟩⟩
  have hready₁ := hopen.of_blockFrame hframe₁
  refine ⟨s₁, hready₁, hframe₁, hcv₁, fun Q out s₂ hblocks hframe₂ => ?_⟩
  obtain ⟨hidle₂, -⟩ := hready₁.of_blockFrame hframe₂
  obtain ⟨t, hrun₃, hframe₃, -, -⟩ :=
    runCommand_of_execResult_ok (i := .modeClear) (r := s₂.closeSession) turn hidle₂ rfl hidle₂ rfl
  refine ⟨t, ?_, ?_⟩
  · rw [runMessage, hrun₁, hostThen_ok, hblocks, hostThen_ok, hrun₃, hostThen_ok]
  · rw [hframe₃]
    exact (congrArg (fun f => f.closeSession.blockFrame) (hframe₂.trans hframe₁) :)

/-- What one message procedure makes of whole blocks, the other makes into them again, on the state the first leaves: it
opens the same session again (R212). -/
theorem runMessage_round_trip {s : State} {m : Mode} (turnEnc turnDec : Nat) (h : s.MessageReady m) {Q : List Byte}
    (hQ : blockSize s.cfgAlg ∣ Q.length) :
    ∃ C t u, runMessage turnEnc .enc (blockSize s.cfgAlg) Q s = .next (.ok C, t) ∧ blockSize s.cfgAlg ∣ C.length ∧
      t.cfgAlg = s.cfgAlg ∧ runMessage turnDec .dec (blockSize s.cfgAlg) C t = .next (.ok Q, u) := by
  obtain ⟨hpos, -⟩ := blockSize_bounds s.cfgAlg
  obtain ⟨Bs, hBs, rfl⟩ := exists_blocks_of_dvd hQ
  obtain ⟨s₁, hready₁, hframe₁, hcv₁, henc⟩ := runMessage_of_runBlocks turnEnc .enc h
  obtain ⟨Cs, s₂, hrun, hCs, hframe₂, hback⟩ := runBlocks_round_trip turnEnc turnDec hready₁ hBs
  rw [← blocksOf_flatten hpos hBs] at hrun
  obtain ⟨t, htrun, htframe⟩ := henc Bs.flatten _ s₂ hrun hframe₂
  have halg : t.cfgAlg = s.cfgAlg := (congrArg State.cfgAlg htframe :)
  have htready : t.blockFrame.MessageReady m := htframe ▸ (h : s.closeSession.blockFrame.MessageReady m)
  obtain ⟨t₁, -, htframe₁, htcv₁, hdec⟩ := runMessage_of_runBlocks (s := t) turnDec .dec htready
  have hsession : (t.openSession m).blockFrame = (s.openSession m).blockFrame :=
    (congrArg (fun f => (f.openSession m).blockFrame) htframe :)
  have hcv : (t.openSession m).cvbuf = (s.openSession m).cvbuf := (congrArg (fun f => (f.openSession m).cvbuf) htframe :)
  obtain ⟨t₂, htrun₂, htframe₂⟩ :=
    hback t₁ ((htframe₁.trans hsession).trans hframe₁.symm) ((htcv₁.trans hcv).trans hcv₁.symm)
  rw [← blocksOf_flatten hpos hCs, ← halg] at htrun₂
  obtain ⟨u, hurun, -⟩ := hdec Cs.flatten _ t₂ htrun₂ htframe₂
  exact ⟨Cs.flatten, t, u, htrun, dvd_length_flatten hCs, halg, halg ▸ hurun⟩

/-- Settles O60: the padded message is whole blocks, which the decryption gives back, and unpadding keeps the message. -/
theorem messageRoundTrip : Obligations.MessageRoundTrip := by
  unfold Obligations.MessageRoundTrip
  intro s m scheme draw P turnEnc turnDec hbusy _ hrst hmode hiv hlen hkey hscheme
  obtain ⟨hpos, -⟩ := blockSize_bounds s.cfgAlg
  obtain ⟨C, t, u, henc, hC, halg, hdec⟩ := runMessage_round_trip turnEnc turnDec
    (show s.MessageReady m from ⟨⟨hbusy, hrst⟩, hmode, hiv, hlen, hkey⟩) (dvd_length_pad scheme hpos draw P)
  have hunpad : unpad scheme (blockSize s.cfgAlg) (pad scheme (blockSize s.cfgAlg) draw P) = .ok P := by
    obtain ⟨hkept, hzeros⟩ := paddingRoundTrip s.cfgAlg draw P
    rcases eq_or_ne scheme .zeros with rfl | hne
    · exact hzeros.mpr (hscheme rfl)
    · exact hkept scheme hne
  have hwhole : C.length % blockSize s.cfgAlg = 0 := Nat.mod_eq_zero_of_dvd hC
  refine ⟨C, t, u, henc, hwhole, ?_⟩
  simp only [decryptMessage, halg]
  rw [if_neg (not_not.mpr hwhole), hdec, hostThen_ok, hunpad]

end Sys2Proof.Machine

/-! SUPPORT. Acceptance, completion and errors (spec/60_exceptions.md): what every completion records, the steps up to the
core's turn, and the error each command reports; then the statements about them. -/

namespace Sys2Proof.Machine

/-! ### Acceptance and completion (R301 to R303) -/

/-- The core's turn always answers next (R301). -/
theorem coreTurn_next (s : State) : ∃ t, coreTurn s = .next t := by
  rcases coreTurn_cases s with ⟨-, hturn⟩ | ⟨c, -, -, hturn⟩
  · exact ⟨s, hturn⟩
  · rw [hturn]
    exact runWord_next c s

/-- Settles O9: the core's turn, a host transaction and a change of the reset pin each answer a next state. -/
theorem everyStepAnswersNext : Obligations.EveryStepAnswersNext := by
  unfold Obligations.EveryStepAnswersNext
  intro s
  rcases step_cases s with ⟨rest, -, hstep⟩ | ⟨x, rest, -, hstep⟩ | ⟨l, rest, -, hstep⟩
  · rw [hstep]
    exact coreTurn_next _
  · exact ⟨_, hstep⟩
  · exact ⟨_, hstep⟩

/-- Settles O10: on an idle core the CMD write is the acceptance, and a pending command turns it away. -/
theorem acceptanceOfACommand : Obligations.AcceptanceOfACommand := by
  unfold Obligations.AcceptanceOfACommand
  exact fun s c => ⟨hostWrite_cmd c, fun hb => hostWrite_of_busy c hb (.inr (.inl rfl))⟩

/-- Settles O12: only a command that fails reports an error, and its completion is all it leaves. -/
theorem failingCommandChangesOnlyStatus : Obligations.FailingCommandChangesOnlyStatus := by
  unfold Obligations.FailingCommandChangesOnlyStatus
  intro c s t hrun herr
  rcases runWord_next_cases hrun with ⟨i, s', -, -, rfl⟩ | ⟨e, rfl⟩
  · exact absurd rfl herr
  · rfl

/-- What every completion of a command word records, whatever the word was (R303). -/
theorem runWord_completes {c : Word} {s t : State} (h : runWord c s = .next t) :
    t.pending = none ∧ t.busy = false ∧ t.done = true ∧ t.ecmd = opcOf c := by
  rcases runWord_next_cases h with ⟨_, _, -, -, rfl⟩ | ⟨_, rfl⟩ <;> exact ⟨rfl, rfl, rfl, rfl⟩

/-- When the core is next with a command pending, one step completes it (R303). -/
theorem step_completes {s : State} {c : Word} {rest : List Input} (hnext : s.coreNext = some rest)
    (hp : s.pending = some c) (hr : s.rst = false) :
    ∃ t, step s = .next t ∧ t.pending = none ∧ t.busy = false ∧ t.done = true ∧ t.ecmd = opcOf c := by
  obtain ⟨t, hrun⟩ := runWord_next c { s with inputs := rest }
  refine ⟨t, ?_, runWord_completes hrun⟩
  rw [step_of_coreNext hnext, coreTurn_of_pending (s := { s with inputs := rest }) hp hr, hrun]

/-- Running one step is stepping. -/
theorem run_one {s t : State} (h : step s = .next t) : Host.Core.run Sys2Proof.core 1 s = .next t := by
  rw [run_succ 0 h]
  rfl

/-- The waiting host transactions leave a pending command pending, so it completes at the core's first turn, or at the step
after the last input. -/
theorem run_completes {s : State} {c : Word} (hb : s.busy = true) (hp : s.pending = some c) (hr : s.rst = false)
    (hpin : ∀ l, Input.pin l ∉ s.inputs) :
    ∃ k t, k ≤ s.inputs.length + 1 ∧ Host.Core.run Sys2Proof.core k s = .next t ∧ t.pending = none ∧ t.busy = false ∧
      t.done = true ∧ t.ecmd = opcOf c := by
  induction hin : s.inputs generalizing s with
  | nil =>
    obtain ⟨t, hstep, hdone⟩ := step_completes (rest := []) (by rw [State.coreNext, hin]) hp hr
    exact ⟨1, t, Nat.le_add_left 1 _, run_one hstep, hdone⟩
  | cons x rest ih =>
    rw [hin] at hpin
    cases x with
    | core =>
      obtain ⟨t, hstep, hdone⟩ := step_completes (rest := rest) (by rw [State.coreNext, hin]) hp hr
      exact ⟨1, t, Nat.le_add_left 1 _, run_one hstep, hdone⟩
    | pin l => exact absurd List.mem_cons_self (hpin l)
    | host x =>
      obtain ⟨ie, done, haz, rd, hx, -⟩ := transact_while_busy { s with inputs := rest } x hb
      have hstep := step_of_host hin
      rw [hx] at hstep
      obtain ⟨k, t, hk, hrun, hdone⟩ :=
        ih (s := { s with inputs := rest, ie := ie, done := done, haz := haz, readData := rd }) hb hp hr
          (fun l h => hpin l (List.mem_cons_of_mem _ h)) rfl
      exact ⟨k + 1, t, Nat.succ_le_succ hk, (run_succ k hstep).trans hrun, hdone⟩

/-- Settles O11: a pending word means BUSY = 1, which keeps it pending until the core's turn. -/
theorem pendingCommandCompletes : Obligations.PendingCommandCompletes := by
  unfold Obligations.PendingCommandCompletes
  intro s c hinv hp hr hpin
  have hb : s.busy = true := by rw [hinv, hp, Option.isSome_some]
  exact run_completes hb hp hr hpin

/-! ### BUSY excludes DONE and an error (R302, R303) -/

/-- BUSY agrees with the pending word, and stands only with DONE and ERR clear. -/
def State.BusyInv (s : State) : Prop := s.PendingInv ∧ (s.busy = true → s.done = false ∧ s.err = .ok)

/-- Where BUSY = 0 and nothing is pending there is nothing to show. -/
theorem State.busyInv_of_idle {s : State} (hb : s.busy = false) (hp : s.pending = none) : s.BusyInv :=
  ⟨by rw [State.PendingInv, hb, hp, Option.isSome_none], fun h => absurd (hb.symm.trans h) Bool.false_ne_true⟩

/-- A host transaction never sets DONE or ERR, and an acceptance clears both. -/
theorem transact_busyInv {s : State} (x : Transaction) (hinv : s.BusyInv) : (s.transact x).BusyInv := by
  refine ⟨transact_pendingInv x hinv.1, ?_⟩
  rcases transact_cases s x with ⟨_, _, h⟩ | ⟨v, _, _, h⟩ | ⟨_, h⟩ | ⟨_, _, _, h⟩ | ⟨_, _, _, _, _, _, h⟩ <;> rw [h]
  case inr.inl =>
    intro hb
    obtain ⟨hdone, herr⟩ := hinv.2 hb
    exact ⟨by rw [State.writeStatus_done, hdone, ite_self], herr⟩
  case inr.inr.inr.inl => exact fun _ => ⟨rfl, rfl⟩
  all_goals exact hinv.2

/-- Settles O45: a completion and a reset leave BUSY = 0, and a host transaction keeps the invariant. -/
theorem busyMeansNotDone : Obligations.BusyMeansNotDone := by
  unfold Obligations.BusyMeansNotDone
  intro s t hpending hclear h
  have hinv : s.BusyInv := ⟨hpending, hclear⟩
  show t.BusyInv
  rcases step_next_cases h with ⟨rest, -, -, rfl⟩ | ⟨rest, c, -, -, -, hrun⟩ | ⟨x, rest, -, rfl⟩ | ⟨l, rest, -, rfl⟩
  · exact hinv
  · obtain ⟨hp, hb, -, -⟩ := runWord_completes hrun
    exact State.busyInv_of_idle hb hp
  · exact transact_busyInv x hinv
  · rcases setPin_cases { s with inputs := rest } l with hset | ⟨-, -, hset⟩ <;> rw [hset]
    · exact State.busyInv_of_idle rfl rfl
    · exact hinv

/-! ### The error a command reports (R300, R306) -/

/-- The code a result is recorded with: that of its error, or OK. -/
def errOf {α : Type} : Except ErrCode α → ErrCode
  | .ok _ => .ok
  | .error e => e

/-- A command leaves the code of its result in ERR (R303). -/
theorem exec_err {i : Instr} {s t : State} (h : exec i s = .next t) : t.err = errOf (execResult i s) := by
  rw [exec_eq_finish_execResult] at h
  cases h
  cases execResult i s <;> rfl

/-- The checks of ENCRYPT and DECRYPT, in their order (R306). -/
theorem errOf_cipherCheck (s : State) : errOf (cipherCheck s) =
    if s.cfgDlen ≠ blockSize s.cfgAlg then .blockLen else if s.keyValid s.cfgAlg = false then .noKey else .ok := by
  rw [cipherCheck, apply_ite errOf, apply_ite errOf]
  rfl

/-- The checks of MODE_ENC and MODE_DEC, in their order (R306). -/
theorem errOf_sessionCheck (s : State) : errOf (sessionCheck s) =
    if s.sess = false then .noSession else if s.cfgDlen ≠ blockSize s.salg then .blockLen
    else if s.keyValid s.salg = false then .noKey else .ok := by
  rw [sessionCheck, apply_ite errOf, apply_ite errOf, apply_ite errOf]
  rfl

/-- ENCRYPT and DECRYPT report what their checks find. -/
theorem errOf_cipherCommand {i : Instr} (hi : i = .encrypt ∨ i = .decrypt) (s : State) :
    errOf (execResult i s) = errOf (cipherCheck s) := by
  rcases hi with rfl | rfl
  · rw [execResult, encryptResult]
    cases cipherCheck s <;> rfl
  · rw [execResult, decryptResult]
    cases cipherCheck s <;> rfl

/-- MODE_ENC and MODE_DEC report what their checks find. -/
theorem errOf_modeBlockResult (d : Dir) (s : State) : errOf (modeBlockResult d s) = errOf (sessionCheck s) := by
  rw [modeBlockResult]
  cases sessionCheck s <;> rfl

/-- SETKEY reports KEY_LEN for every length but the algorithm's own (R231). -/
theorem errOf_setkeyResult (s : State) : errOf (setkeyResult s) =
    if (s.cfgAlg = .des ∧ s.cfgKeylen = 8) ∨ (s.cfgAlg = .deal ∧ s.cfgKeylen ∈ [16, 24, 32]) then .ok else .keyLen := by
  split
  next hlegal =>
    rcases hlegal with ⟨halg, hlen⟩ | ⟨halg, hlen⟩
    · rw [setkeyResult_of_des halg hlen, errOf]
    · obtain ⟨⟨L, nr⟩, hrow, hL⟩ := List.mem_map.mp
        (show s.cfgKeylen ∈ [(16, 6), (24, 8), (32, 12)].map Prod.fst from hlen)
      have hle : s.cfgKeylen ≤ 32 := by
        rw [List.mem_cons, List.mem_pair] at hlen
        omega
      have hrounds : dealRounds s.cfgKeylen = some nr := by
        rw [← hL]
        exact dealRounds_of_mem hrow
      rw [setkeyResult_of_deal halg hle hrounds, errOf]
  next hillegal =>
    rw [setkeyResult_of_illegal, errOf]
    cases halg : s.cfgAlg <;> simpa [halg] using hillegal

/-- The reserved MODE value is the only one that names no mode (R24). -/
theorem modeOfBits_eq_none_iff : ∀ b : BitVec 3, modeOfBits b = none ↔ b = 7#3 := by decide

/-- ECB is MODE value 0 (R24). -/
theorem modeOfBits_eq_ecb_iff : ∀ b : BitVec 3, modeOfBits b = some .ecb ↔ b = 0#3 := by decide

/-- MODE_INIT reports a reserved mode, then a wrong IV length outside ECB (R234, R306). -/
theorem errOf_modeInitResult (s : State) : errOf (modeInitResult s) =
    if s.cfgMode = 7#3 then .badMode
    else if s.cfgMode ≠ 0#3 ∧ s.cfgIvlen ≠ blockSize s.cfgAlg then .ivLen else .ok := by
  simp only [modeInitResult, ← modeOfBits_eq_none_iff, ne_eq, ← modeOfBits_eq_ecb_iff]
  cases modeOfBits s.cfgMode with
  | none => rfl
  | some m =>
    simp only [reduceCtorEq, if_false, Option.some.injEq]
    exact apply_ite errOf _ _ _

/-- No command reports ILLEGAL_CMD: that is the error of a word that is no command (R83, R300). -/
theorem errOf_execResult_ne_illegalCmd (i : Instr) (s : State) : errOf (execResult i s) ≠ .illegalCmd := by
  cases i with
  | nop | modeClear | softreset => exact nofun
  | setkey =>
    rw [execResult, errOf_setkeyResult]
    split_ifs <;> exact nofun
  | encrypt | decrypt =>
    rw [errOf_cipherCommand (by decide), errOf_cipherCheck]
    split_ifs <;> exact nofun
  | modeInit =>
    rw [execResult, errOf_modeInitResult]
    split_ifs <;> exact nofun
  | modeEnc | modeDec =>
    rw [execResult, errOf_modeBlockResult, errOf_sessionCheck]
    split_ifs <;> exact nofun

/-- A word is well formed exactly when it encodes a command (R82, R84). -/
theorem wordWf_iff_exists_encode {c : Word} : wordWf c = true ↔ ∃ i, c = encode i := by
  constructor
  · intro h
    rw [wordWf, Bool.and_eq_true, beq_iff_eq, List.contains_iff_mem] at h
    obtain ⟨hrsv, hopc⟩ := h
    obtain ⟨i, -, hi⟩ := List.mem_map.mp (show opcOf c ∈ commands.map Instr.opc from hopc)
    exact ⟨i, eq_encode_of_fields hrsv hi.symm⟩
  · rintro ⟨i, rfl⟩
    cases i <;> decide

/-- A command word reports ILLEGAL_CMD exactly when it is none of the nine (R83, R306). -/
theorem runWord_err_eq_illegalCmd_iff {c : Word} {s t : State} (h : runWord c s = .next t) :
    t.err = .illegalCmd ↔ wordWf c = false := by
  rw [← Bool.not_eq_true, wordWf_iff_exists_encode]
  rcases runWord_cases c s with ⟨i, hdec, hrun⟩ | ⟨e, hdec, hrun⟩
  · refine iff_of_false ?_ (not_not.mpr ⟨i, eq_encode_of_decode hdec⟩)
    rw [exec_err (hrun.symm.trans h)]
    exact errOf_execResult_ne_illegalCmd i s
  · cases hrun.symm.trans h
    refine iff_of_true rfl ?_
    rintro ⟨i, rfl⟩
    cases hdec.symm.trans (decode_encode i)

/-- Settles O13: the code in ERR is that of the command's result, which its checks decide in order. -/
theorem errorPriority : Obligations.ErrorPriority := by
  unfold Obligations.ErrorPriority
  refine ⟨fun c s t => runWord_err_eq_illegalCmd_iff, fun i s t h => ?_⟩
  have herr := exec_err h
  cases i with
  | nop | modeClear | softreset => exact herr
  | setkey => exact herr.trans (errOf_setkeyResult s)
  | encrypt => exact herr.trans ((errOf_cipherCommand (.inl rfl) s).trans (errOf_cipherCheck s))
  | decrypt => exact herr.trans ((errOf_cipherCommand (.inr rfl) s).trans (errOf_cipherCheck s))
  | modeInit => exact herr.trans (errOf_modeInitResult s)
  | modeEnc => exact herr.trans ((errOf_modeBlockResult .enc s).trans (errOf_sessionCheck s))
  | modeDec => exact herr.trans ((errOf_modeBlockResult .dec s).trans (errOf_sessionCheck s))

end Sys2Proof.Machine

/-! SUPPORT. Reset and hazards (spec/70_reset_and_hazards.md): what polls before the core's turn change, and what the reset
pin leaves and keeps; then the statements about them. -/

namespace Sys2Proof.Machine

/-! ### Polls before the core's turn (R350) -/

/-- Every command word keeps the level of the reset pin. -/
theorem runWord_rst {c : Word} {s t : State} (h : runWord c s = .next t) : t.rst = s.rst := by
  rcases runWord_next_cases h with ⟨i, s', -, heffect, rfl⟩ | ⟨e, rfl⟩
  · cases heffect <;> rfl
  · rfl

/-- The state with host reads of the given words waiting, and the core's turn after them. -/
def State.withPolls (s : State) (polls : List Idx) : State :=
  { s with inputs := polls.map (fun x => Input.host (.read x)) ++ [.core] }

/-- The first of the waiting reads changes only the word returned to the host (R64). -/
theorem step_withPolls_cons {s : State} (x : Idx) (polls : List Idx) (hr : s.rst = false) :
    step (s.withPolls (x :: polls)) = .next (State.withPolls { s with readData := s.hostRead x } polls) :=
  (step_of_host rfl).trans (congrArg _ (transact_read_of_released (s := s.withPolls polls) x hr))

/-- With no read left the core has its turn, and then no input waits. -/
theorem step_withPolls_nil {s : State} (hin : s.inputs = []) : step (s.withPolls []) = coreTurn s := by
  have hstate : ({ s.withPolls [] with inputs := [] } : State) = s := by
    rw [← hin]
    rfl
  rw [step_of_coreNext (rest := []) rfl, hstate]

/-- Host reads before the core's turn leave what the turn leaves, but for the word last read. -/
theorem run_withPolls {s t : State} (polls : List Idx) (hin : s.inputs = []) (hr : s.rst = false)
    (ht : coreTurn s = .next t) :
    ∃ r, Host.Core.run Sys2Proof.core (polls.length + 1) (s.withPolls polls) = .next { t with readData := r } := by
  induction polls generalizing s t with
  | nil => exact ⟨t.readData, run_one ((step_withPolls_nil hin).trans ht)⟩
  | cons x polls ih =>
    obtain ⟨r, hrun⟩ := ih (s := { s with readData := s.hostRead x }) hin hr (coreTurn_readData s t _ ht)
    exact ⟨r, (run_succ _ (step_withPolls_cons x polls hr)).trans hrun⟩

/-- On a core with nothing pending the loop of `wait` ends at its first poll (R88). -/
theorem waitLoop_of_nothing_pending {s : State} (turn : Nat) (hr : s.rst = false) (hb : s.busy = false)
    (hp : s.pending = none) : waitLoop turn s = .next (.ok (), { s with readData := s.statusWord }) := by
  rw [← State.poll_eq hr]
  cases turn with
  | zero =>
    simp only [waitLoop, coreTurn_of_idle hp]
    rw [if_neg (by rw [State.poll_busy hr, hb]; decide)]
  | succ turn => exact waitLoop_of_idle turn hr hb

/-- Settles O15: no command looks at the word last read, and its completion clears BUSY. -/
theorem pollsDoNotChangeTheOutcome : Obligations.PollsDoNotChangeTheOutcome := by
  unfold Obligations.PollsDoNotChangeTheOutcome
  refine ⟨fun s t c polls hin _ hr h => ?_, fun s t c turn hb hp hr h => ?_,
    fun s turn hb hp hr => waitLoop_of_nothing_pending turn hr hb hp⟩
  · rw [step, move, hin] at h
    exact run_withPolls polls hin hr h
  · have hrun : runWord c s = .next t := (coreTurn_of_pending hp hr).symm.trans h
    obtain ⟨-, hidle, -, -⟩ := runWord_completes hrun
    exact ⟨waitLoop_of_coreTurn turn hr hb h ((runWord_rst hrun).trans hr) hidle, (statusWord_bits t).1.trans hidle⟩

/-! ### Reset (R330, R331, R333) -/

/-- The interrupt line of a core at reset is low (R41). -/
theorem State.AtReset.irq {s : State} (h : s.AtReset) : s.irq = false := by
  obtain ⟨hie, -⟩ := h
  rw [State.irq, hie, Bool.false_and]

/-- A word of a buffer that is zero is zero. -/
theorem wordAt_zero (n w : Nat) : wordAt 0#n w = 0#32 := by
  rw [wordAt, BitVec.extractLsb'_zero]

/-- Every register word of a core at reset reads zero (R43, R64). -/
theorem State.AtReset.hostRead {s : State} (h : s.AtReset) (idx : Idx) : s.hostRead idx = 0x00000000#32 := by
  obtain ⟨hie, hcfg, hstatus, -, -, hkey, hdin, hdout, hiv, hdelta, hcv, -⟩ := h
  rw [State.hostRead]
  cases regOf idx with
  | ctrl => rw [State.readReg, State.ctrlWord, hie]; rfl
  | cfg => rw [State.readReg, State.cfgWord, hcfg]; rfl
  | cmd | reserved => rfl
  | status => exact hstatus
  | key w => rw [State.readReg, hkey, wordAt_zero]
  | din w => rw [State.readReg, hdin, wordAt_zero]
  | dout w => rw [State.readReg, hdout, wordAt_zero]
  | iv w => rw [State.readReg, hiv, wordAt_zero]
  | delta w => rw [State.readReg, hdelta, wordAt_zero]
  | cv w => rw [State.readReg, hcv, wordAt_zero]

/-- The state right after reset has every reset value (R43). -/
theorem reset_atReset : State.reset.AtReset := by decide

/-- Settles O24: the reset values are those of an idle core, whose first transaction is performed like any other. -/
theorem resetLeavesAnIdleCore : Obligations.ResetLeavesAnIdleCore := by
  unfold Obligations.ResetLeavesAnIdleCore
  have hread (idx : Idx) : State.reset.transact (.read idx) = State.reset := by
    rw [transact_read_of_released idx rfl, reset_atReset.hostRead idx]
    rfl
  refine ⟨reset_atReset, rfl, rfl, rfl, rfl, rfl, reset_atReset.irq, reset_atReset.hostRead, fun idx v => ?_, fun idx => ?_⟩
  · exact (step_of_host rfl).trans (congrArg _ (transact_write_of_released (s := State.reset) idx v rfl))
  · exact (step_of_host rfl).trans (congrArg _ (hread idx))

/-- While `rst` is asserted a read returns zero and changes nothing of DES_core (R330). -/
theorem transact_read_of_reset {s : State} (idx : Idx) (hr : s.rst = true) :
    s.transact (.read idx) = { s with readData := 0x00000000#32 } := by
  simp [State.transact, hr]

/-- Asserting the pin puts every element with a reset value at it, whatever was pending (R330). -/
theorem step_of_pin_asserted {s : State} {rest : List Input} (h : s.inputs = .pin true :: rest) :
    ∃ t, step s = .next t ∧ t.AtReset ∧ t.rst = true ∧ t.irq = false ∧ t.inputs = rest :=
  have hreset := resetCore_atReset { s with inputs := rest }
  ⟨_, step_of_pin h, hreset, rfl, rfl, rfl⟩

/-- While the pin is asserted on a core at reset, every input but its release is taken and changes no element with a reset
value, and a read returns zero (R330). -/
theorem step_while_reset {s : State} {x : Input} {rest : List Input} (h : s.AtReset) (hr : s.rst = true)
    (hin : s.inputs = x :: rest) (hx : x ≠ .pin false) :
    ∃ t, step s = .next t ∧ t.AtReset ∧ t.rst = true ∧ t.irq = false ∧ t.inputs = rest ∧
      (∀ idx, x = .host (.read idx) → t.readData = 0x00000000#32) := by
  have ⟨_, _, _, _, hp, _⟩ := h
  cases x with
  | core =>
    have hturn := step_of_coreNext (s := s) (rest := rest) (by rw [State.coreNext, hin])
    rw [coreTurn_of_idle (s := { s with inputs := rest }) hp] at hturn
    exact ⟨_, hturn, h, hr, h.irq, rfl, nofun⟩
  | host x =>
    have hstep := step_of_host hin
    cases x with
    | write idx v =>
      rw [transact_write_of_reset (s := { s with inputs := rest }) idx v hr] at hstep
      exact ⟨_, hstep, h, hr, h.irq, rfl, nofun⟩
    | read idx =>
      rw [transact_read_of_reset (s := { s with inputs := rest }) idx hr] at hstep
      exact ⟨_, hstep, h, hr, h.irq, rfl, fun _ _ => rfl⟩
  | pin l =>
    cases l with
    | false => exact absurd rfl hx
    | true =>
      obtain ⟨t, hstep, hreset, hasserted, hirq, hrest⟩ := step_of_pin_asserted hin
      exact ⟨t, hstep, hreset, hasserted, hirq, hrest, nofun⟩

/-- Settles O25: assertion and release apply the reset values, and in between nothing but the word read can change. -/
theorem resetPinHoldsReset : Obligations.ResetPinHoldsReset := by
  unfold Obligations.ResetPinHoldsReset
  refine ⟨fun s rest => step_of_pin_asserted, fun s x rest => step_while_reset, fun s rest hr hin => ?_⟩
  rcases setPin_cases { s with inputs := rest } false with hset | ⟨-, hreleased, -⟩
  · exact ⟨_, (step_of_pin hin).trans (congrArg _ hset), resetCore_atReset { s with inputs := rest }, rfl, rfl⟩
  · exact absurd (hreleased.symm.trans hr) Bool.false_ne_true

end Sys2Proof.Machine
